-- ==== Sys2Proof/Word.lean ====
section
/-! DEFINITION. Register values, CPU identifiers and line numbers (00_scope.md R8, R9). -/

namespace Sys2Proof

/-- A 64-bit register value, bit 0 least significant (R8, R9). -/
abbrev Word := BitVec 64

/-- A CPU identifier: a value of the 3-bit field `C` (R80); those below `NCPU` exist (R6, R236). -/
abbrev CpuId := Fin 8

/-- An IRQ line of this block, in [0, 64) (R12). -/
abbrev Line := Fin 64

end Sys2Proof
end

