-- ==== Sys2Proof/Syntax.lean ====
section
/-! DEFINITION. The commands (30_encoding.md R84), their names, the pseudo-commands (R88) and the fault codes (60_exceptions.md R223). -/

namespace Sys2Proof

/-- The 22 command names of the opcode map (R84); an event names a command by it (R222). -/
inductive Op where
  | rdStatus | wrSet | wrClear | rdMask | wrMask | rdCause
  | assign | release | ownerOf | bind | lookup
  | startup | shutdown | ack | mask | unmask | maskAck
  | ctrlInit | cpuReset | irqEntry | ipiSend | ipiReceive
  deriving DecidableEq, Repr

/-- A command with its operands (R80, R84). `c` is the 3-bit field `C`; `l`, `b` and `slot` are the
8-bit fields `L`, `B` and `S`, kept as numbers as they stand (R81); `d` is the 64-bit data operand.
The issuing CPU is not encoded (R80). -/
inductive Instr where
  | rdStatus
  | wrSet (d : Word)
  | wrClear (d : Word)
  | rdMask (c : CpuId)
  | wrMask (c : CpuId) (d : Word)
  | rdCause
  | assign (l : Nat) (c : CpuId)
  | release (l : Nat)
  | ownerOf (l : Nat)
  | bind (l b slot : Nat)
  | lookup (l : Nat)
  | startup (l : Nat)
  | shutdown (l : Nat)
  | ack (l : Nat)
  | mask (l : Nat)
  | unmask (l : Nat)
  | maskAck (l : Nat)
  | ctrlInit
  | cpuReset (c : CpuId)
  | irqEntry
  | ipiSend (c : CpuId) (d : Word)
  | ipiReceive
  deriving DecidableEq, Repr

/-- The pseudo-commands of R88. -/
inductive Pseudo where
  | enable (l : Nat)
  | disable (l : Nat)
  | ipiResched (c : CpuId)
  | ipiCall (c : CpuId)
  | ackErr
  deriving DecidableEq, Repr

/-- The fault codes of R223. -/
inductive FaultCode where
  | illegalOpcode | reservedField | irqRange | cpuRange | bridgeRange | slotRange
  | doubleBind | nestedEntry | mmioAccess
  deriving DecidableEq, Repr

end Sys2Proof
end

