-- ==== Sys2Proof/WellFormed.lean ====
section
/-! DEFINITION. Which commands have an encoding: each numeric operand fits its field (30_encoding.md R80, R81). -/

namespace Sys2Proof

/-- An operand of an 8-bit field (`L`, `B` or `S`, R80) fits it. -/
def fitsByte (n : Nat) : Bool := decide (n < 256)

/-- Every operand fits its field (R80). The range checks of R81 are NOT here: they run at execution
time, so `startup 64` is a well-formed command that faults. -/
def Instr.wellFormed : Instr → Bool
  | .rdStatus => true
  | .wrSet _ => true
  | .wrClear _ => true
  | .rdMask _ => true
  | .wrMask _ _ => true
  | .rdCause => true
  | .assign l _ => fitsByte l
  | .release l => fitsByte l
  | .ownerOf l => fitsByte l
  | .bind l b slot => fitsByte l && fitsByte b && fitsByte slot
  | .lookup l => fitsByte l
  | .startup l => fitsByte l
  | .shutdown l => fitsByte l
  | .ack l => fitsByte l
  | .mask l => fitsByte l
  | .unmask l => fitsByte l
  | .maskAck l => fitsByte l
  | .ctrlInit => true
  | .cpuReset _ => true
  | .irqEntry => true
  | .ipiSend _ _ => true
  | .ipiReceive => true

end Sys2Proof
end

