-- ==== Sys2Proof/Decode.lean ====
section
/-! DEFINITION. The opcode map, the decoder, the encoder, the pseudo-commands and the assembler (30_encoding.md R80-R89). -/

namespace Sys2Proof

/-- One row of the opcode map (R84): the operation code, which fields the command uses, and whether
it uses the data operand. -/
structure OpcodeRow where
  op : Op
  opc : Nat
  usesC : Bool
  usesB : Bool
  usesS : Bool
  usesL : Bool
  usesD : Bool
  deriving DecidableEq, Repr

/-- The row of each command, from the columns OPC, fields and data of R84. -/
def Op.row : Op → OpcodeRow
  | .rdStatus   => ⟨.rdStatus,   0x01, false, false, false, false, false⟩
  | .wrSet      => ⟨.wrSet,      0x02, false, false, false, false, true⟩
  | .wrClear    => ⟨.wrClear,    0x03, false, false, false, false, true⟩
  | .rdMask     => ⟨.rdMask,     0x04, true,  false, false, false, false⟩
  | .wrMask     => ⟨.wrMask,     0x05, true,  false, false, false, true⟩
  | .rdCause    => ⟨.rdCause,    0x06, false, false, false, false, false⟩
  | .assign     => ⟨.assign,     0x08, true,  false, false, true,  false⟩
  | .release    => ⟨.release,    0x09, false, false, false, true,  false⟩
  | .ownerOf    => ⟨.ownerOf,    0x0A, false, false, false, true,  false⟩
  | .bind       => ⟨.bind,       0x0C, false, true,  true,  true,  false⟩
  | .lookup     => ⟨.lookup,     0x0D, false, false, false, true,  false⟩
  | .startup    => ⟨.startup,    0x10, false, false, false, true,  false⟩
  | .shutdown   => ⟨.shutdown,   0x11, false, false, false, true,  false⟩
  | .ack        => ⟨.ack,        0x12, false, false, false, true,  false⟩
  | .mask       => ⟨.mask,       0x13, false, false, false, true,  false⟩
  | .unmask     => ⟨.unmask,     0x14, false, false, false, true,  false⟩
  | .maskAck    => ⟨.maskAck,    0x15, false, false, false, true,  false⟩
  | .ctrlInit   => ⟨.ctrlInit,   0x18, false, false, false, false, false⟩
  | .cpuReset   => ⟨.cpuReset,   0x19, true,  false, false, false, false⟩
  | .irqEntry   => ⟨.irqEntry,   0x1A, false, false, false, false, false⟩
  | .ipiSend    => ⟨.ipiSend,    0x1C, true,  false, false, false, true⟩
  | .ipiReceive => ⟨.ipiReceive, 0x1D, false, false, false, false, false⟩

/-- The commands in the order of R84. -/
def Op.all : List Op :=
  [.rdStatus, .wrSet, .wrClear, .rdMask, .wrMask, .rdCause,
   .assign, .release, .ownerOf, .bind, .lookup,
   .startup, .shutdown, .ack, .mask, .unmask, .maskAck,
   .ctrlInit, .cpuReset, .irqEntry, .ipiSend, .ipiReceive]

/-- The opcode map (R84). -/
def opcodeMap : List OpcodeRow := Op.all.map Op.row

/-- The column `match` of R84: the operation code in `w[31:27]`, every other bit zero. -/
def OpcodeRow.matchWord (r : OpcodeRow) : BitVec 32 := BitVec.ofNat 32 (0x8000000 * r.opc)

/-- The column `mask` of R84: the bits that are not in a field the command uses. -/
def OpcodeRow.maskWord (r : OpcodeRow) : BitVec 32 :=
  BitVec.ofNat 32 (0xF8000000
    + (if r.usesC then 0 else 0x7000000)
    + (if r.usesB then 0 else 0xFF0000)
    + (if r.usesS then 0 else 0xFF00)
    + (if r.usesL then 0 else 0xFF))

/-- The fields of a command word, but for `OPC`, and the data operand (R80). -/
structure Fields where
  c : CpuId
  b : Nat
  slot : Nat
  l : Nat
  d : Word
  deriving DecidableEq, Repr

/-- `w[31:27]` (R80): the word shifted down by 27 bits. -/
def opcField (w : BitVec 32) : Nat := w.toNat / 0x8000000

/-- `w[26:24]`, `w[23:16]`, `w[15:8]`, `w[7:0]` and `d`, each an unsigned number as it stands (R80, R81). -/
def fieldsOf (w : BitVec 32) (d : Word) : Fields where
  c := Fin.ofNat 8 (w.toNat / 0x1000000)
  b := w.toNat / 0x10000 % 0x100
  slot := w.toNat / 0x100 % 0x100
  l := w.toNat % 0x100
  d := d

/-- Every field the row does not list is zero, and `d` is zero for a command without data (R83). -/
def OpcodeRow.reservedZero (r : OpcodeRow) (f : Fields) : Bool :=
  (r.usesC || f.c == 0) && (r.usesB || f.b == 0) && (r.usesS || f.slot == 0)
    && (r.usesL || f.l == 0) && (r.usesD || f.d == 0)

/-- The command a name and its fields stand for (R84). -/
def Op.build (f : Fields) : Op → Instr
  | .rdStatus => .rdStatus
  | .wrSet => .wrSet f.d
  | .wrClear => .wrClear f.d
  | .rdMask => .rdMask f.c
  | .wrMask => .wrMask f.c f.d
  | .rdCause => .rdCause
  | .assign => .assign f.l f.c
  | .release => .release f.l
  | .ownerOf => .ownerOf f.l
  | .bind => .bind f.l f.b f.slot
  | .lookup => .lookup f.l
  | .startup => .startup f.l
  | .shutdown => .shutdown f.l
  | .ack => .ack f.l
  | .mask => .mask f.l
  | .unmask => .unmask f.l
  | .maskAck => .maskAck f.l
  | .ctrlInit => .ctrlInit
  | .cpuReset => .cpuReset f.c
  | .irqEntry => .irqEntry
  | .ipiSend => .ipiSend f.c f.d
  | .ipiReceive => .ipiReceive

/-- Decode `(w, d)` in the order of R82: the operation code (R84, R85), then the unused fields (R83).
The ranges of R81 are checked when the command executes. Total: every pair gives a command or one
named fault. -/
def decode (w : BitVec 32) (d : Word) : Except FaultCode Instr :=
  match opcodeMap.find? (fun r => r.opc == opcField w) with
  | none => .error .illegalOpcode
  | some r =>
    if r.reservedZero (fieldsOf w d) then .ok (r.op.build (fieldsOf w d))
    else .error .reservedField

/-- The name of a command. -/
def Instr.op : Instr → Op
  | .rdStatus => .rdStatus
  | .wrSet _ => .wrSet
  | .wrClear _ => .wrClear
  | .rdMask _ => .rdMask
  | .wrMask _ _ => .wrMask
  | .rdCause => .rdCause
  | .assign _ _ => .assign
  | .release _ => .release
  | .ownerOf _ => .ownerOf
  | .bind _ _ _ => .bind
  | .lookup _ => .lookup
  | .startup _ => .startup
  | .shutdown _ => .shutdown
  | .ack _ => .ack
  | .mask _ => .mask
  | .unmask _ => .unmask
  | .maskAck _ => .maskAck
  | .ctrlInit => .ctrlInit
  | .cpuReset _ => .cpuReset
  | .irqEntry => .irqEntry
  | .ipiSend _ _ => .ipiSend
  | .ipiReceive => .ipiReceive

/-- The operands of a command, laid into the fields of R84; a field the command does not use is zero (R83). -/
def Instr.fields : Instr → Fields
  | .rdStatus => ⟨0, 0, 0, 0, 0⟩
  | .wrSet d => ⟨0, 0, 0, 0, d⟩
  | .wrClear d => ⟨0, 0, 0, 0, d⟩
  | .rdMask c => ⟨c, 0, 0, 0, 0⟩
  | .wrMask c d => ⟨c, 0, 0, 0, d⟩
  | .rdCause => ⟨0, 0, 0, 0, 0⟩
  | .assign l c => ⟨c, 0, 0, l, 0⟩
  | .release l => ⟨0, 0, 0, l, 0⟩
  | .ownerOf l => ⟨0, 0, 0, l, 0⟩
  | .bind l b slot => ⟨0, b, slot, l, 0⟩
  | .lookup l => ⟨0, 0, 0, l, 0⟩
  | .startup l => ⟨0, 0, 0, l, 0⟩
  | .shutdown l => ⟨0, 0, 0, l, 0⟩
  | .ack l => ⟨0, 0, 0, l, 0⟩
  | .mask l => ⟨0, 0, 0, l, 0⟩
  | .unmask l => ⟨0, 0, 0, l, 0⟩
  | .maskAck l => ⟨0, 0, 0, l, 0⟩
  | .ctrlInit => ⟨0, 0, 0, 0, 0⟩
  | .cpuReset c => ⟨c, 0, 0, 0, 0⟩
  | .irqEntry => ⟨0, 0, 0, 0, 0⟩
  | .ipiSend c d => ⟨c, 0, 0, 0, d⟩
  | .ipiReceive => ⟨0, 0, 0, 0, 0⟩

/-- The command word of a row and its fields (R80). -/
def packWord (opc : Nat) (f : Fields) : BitVec 32 :=
  BitVec.ofNat 32 (0x8000000 * opc + 0x1000000 * f.c.val + 0x10000 * f.b + 0x100 * f.slot + f.l)

/-- The pair `(w, d)` of a command (R80, R84). -/
def encode (i : Instr) : BitVec 32 × Word := (packWord i.op.row.opc i.fields, i.fields.d)

/-- The command read from an instruction's bits, numbered from the command word's bit 0; the data
operand `d` follows in bits 95..32, and every bit above `nbits` is zero. -/
def decodeTableWord (nbits w : Nat) : Option Instr :=
  let bits := w % 2 ^ nbits
  match decode (BitVec.ofNat 32 bits) (BitVec.ofNat 64 (bits / 0x100000000)) with
  | .ok i => some i
  | .error _ => none

/-- The number of a fault code (R223). -/
def FaultCode.code : FaultCode → Nat
  | .illegalOpcode => 1
  | .reservedField => 2
  | .irqRange => 3
  | .cpuRange => 4
  | .bridgeRange => 5
  | .slotRange => 6
  | .doubleBind => 7
  | .nestedEntry => 8
  | .mmioAccess => 9

/-- The one command each pseudo-command expands to (R88). -/
def Pseudo.expand : Pseudo → Instr
  | .enable l => .unmask l
  | .disable l => .mask l
  | .ipiResched c => .ipiSend c 0x1
  | .ipiCall c => .ipiSend c 0x2
  | .ackErr => .wrClear 0xFFF8000000000000

/-! ### Assembler syntax (R87): one line of text, as characters, to one command -/

/-- A decimal or lowercase or uppercase hexadecimal digit's value. -/
def digitValue (ch : Char) : Option Nat :=
  let n := ch.toNat
  if 48 ≤ n ∧ n ≤ 57 then some (n - 48)
  else if 97 ≤ n ∧ n ≤ 102 then some (n - 87)
  else if 65 ≤ n ∧ n ≤ 70 then some (n - 55)
  else none

/-- The digits of a number in the given base, most significant first; `_` may separate digits (R87).
DESIGN CHOICE (assumption 23): `_` is skipped wherever it stands after the first digit, doubled or trailing
too, in the operands `l`, `c`, `b` and `s` as in `#v`; R87 names it beside the data operand only. -/
def digitsValue (base : Nat) : List Char → Nat → Option Nat
  | [], acc => some acc
  | ch :: rest, acc =>
    if ch == '_' then digitsValue base rest acc
    else
      match digitValue ch with
      | some v => if v < base then digitsValue base rest (acc * base + v) else none
      | none => none

/-- A decimal or `0x` hexadecimal integer (R87): it begins with a digit. -/
def parseNumber : List Char → Option Nat
  | [] => none
  | '0' :: 'x' :: rest => if rest.isEmpty || rest.head? == some '_' then none else digitsValue 16 rest 0
  | ch :: rest => if ch == '_' then none else digitsValue 10 (ch :: rest) 0

/-- A data operand `#v`, a 64-bit integer (R87); a leading minus sign gives the two's complement, as
95_test_vectors.md D-19 writes `#-1`. -/
def parseData : List Char → Option Word
  | '#' :: '-' :: rest =>
    match parseNumber rest with
    | some n => if n ≤ 2 ^ 63 then some (-(BitVec.ofNat 64 n)) else none
    | none => none
  | '#' :: rest =>
    match parseNumber rest with
    | some n => if n < 2 ^ 64 then some (BitVec.ofNat 64 n) else none
    | none => none
  | _ => none

/-- A CPU operand, which must fit the 3-bit field `C`. -/
def parseCpu (t : List Char) : Option CpuId :=
  match parseNumber t with
  | some n => if h : n < 8 then some ⟨n, h⟩ else none
  | none => none

/-- An operand of an 8-bit field. -/
def parseByte (t : List Char) : Option Nat :=
  match parseNumber t with
  | some n => if n < 256 then some n else none
  | none => none

/-- Split at the first character for which `p` holds; that character is dropped. -/
def cutAt (p : Char → Bool) : List Char → List Char × Option (List Char)
  | [] => ([], none)
  | ch :: rest =>
    if p ch then ([], some rest)
    else ((ch :: (cutAt p rest).1), (cutAt p rest).2)

/-- The text without its blanks. DESIGN CHOICE (assumption 23): a blank inside an operand is dropped as one
around it is, so `startup 4 2` reads as `startup 42`; R87 says nothing of blanks. -/
def dropBlanks (t : List Char) : List Char := t.filter (fun ch => !(ch == ' ' || ch == '\t'))

/-- The operands of a line: what follows the mnemonic, cut at the commas. -/
def operandTexts : Nat → List Char → List (List Char)
  | 0, _ => []
  | fuel + 1, t =>
    match cutAt (· == ',') t with
    | (a, some rest) => a :: operandTexts fuel rest
    | (a, none) => [a]

/-- The mnemonic of a line and its operands (R87): a line holds at most three operands. -/
def lineParts (t : List Char) : List Char × List (List Char) :=
  match cutAt (fun ch => ch == ' ' || ch == '\t') (t.dropWhile (fun ch => ch == ' ' || ch == '\t')) with
  | (m, none) => (m, [])
  | (m, some rest) => if (dropBlanks rest).isEmpty then (m, []) else (m, operandTexts 4 (dropBlanks rest))

/-- The command with the given mnemonic and operands (R87), the pseudo-commands among them (R88). -/
def assembleParts (m : List Char) (ops : List (List Char)) : Option Instr :=
  match ops with
  | [] =>
    if m = "rd_status".toList then some .rdStatus
    else if m = "rd_cause".toList then some .rdCause
    else if m = "ctrl_init".toList then some .ctrlInit
    else if m = "irq_entry".toList then some .irqEntry
    else if m = "ipi_receive".toList then some .ipiReceive
    else if m = "ack_err".toList then some Pseudo.ackErr.expand
    else none
  | [a] =>
    if m = "wr_set".toList then (parseData a).map .wrSet
    else if m = "wr_clear".toList then (parseData a).map .wrClear
    else if m = "rd_mask".toList then (parseCpu a).map .rdMask
    else if m = "release".toList then (parseByte a).map .release
    else if m = "owner_of".toList then (parseByte a).map .ownerOf
    else if m = "lookup".toList then (parseByte a).map .lookup
    else if m = "startup".toList then (parseByte a).map .startup
    else if m = "shutdown".toList then (parseByte a).map .shutdown
    else if m = "ack".toList then (parseByte a).map .ack
    else if m = "mask".toList then (parseByte a).map .mask
    else if m = "unmask".toList then (parseByte a).map .unmask
    else if m = "mask_ack".toList then (parseByte a).map .maskAck
    else if m = "cpu_reset".toList then (parseCpu a).map .cpuReset
    else if m = "enable".toList then (parseByte a).map (fun l => (Pseudo.enable l).expand)
    else if m = "disable".toList then (parseByte a).map (fun l => (Pseudo.disable l).expand)
    else if m = "ipi_resched".toList then (parseCpu a).map (fun c => (Pseudo.ipiResched c).expand)
    else if m = "ipi_call".toList then (parseCpu a).map (fun c => (Pseudo.ipiCall c).expand)
    else none
  | [a, b] =>
    if m = "wr_mask".toList then
      (parseCpu a).bind (fun c => (parseData b).map (fun d => .wrMask c d))
    else if m = "assign".toList then
      (parseByte a).bind (fun l => (parseCpu b).map (fun c => .assign l c))
    else if m = "ipi_send".toList then
      (parseCpu a).bind (fun c => (parseData b).map (fun d => .ipiSend c d))
    else none
  | [a, b, e] =>
    if m = "bind".toList then
      (parseByte a).bind (fun l => (parseByte b).bind (fun br => (parseByte e).map (fun sl => .bind l br sl)))
    else none
  | _ => none

/-- Assemble one line (R87). -/
def assemble (line : List Char) : Option Instr :=
  assembleParts (lineParts line).1 (lineParts line).2

end Sys2Proof
end

