-- ==== Sys2Proof/Config.lean ====
section
/-! DEFINITION. The configuration record and its reference values, what the outside world chooses in one step, and the free values (00_scope.md R6; 10_state.md R20, R33; 20_memory.md R61, R63). -/

namespace Sys2Proof

/-- The pre-handler operation of the generic dispatch (R6 `FLOW`). -/
inductive FlowOp where
  | ack | maskAck
  deriving DecidableEq, Repr

/-- The byte order of a byte-level view of a register (R61 `HEART_ENDIAN`). -/
inductive Endian where
  | big | little
  deriving DecidableEq, Repr

/-- A routing value of a bridge slot: an opaque token, on which the block does no operation (R29, R6 `RouteVal`). -/
abbrev RouteValue := Nat

/-- One row of the parameter `RouteVal`: the value written for a bridge, a slot and a line (R6). -/
structure RouteRow where
  bridge : Nat
  slot : Nat
  line : Line
  value : RouteValue
  deriving DecidableEq, Repr

/-- The configuration `Cfg` (R6), every parameter the source leaves open. It is a field of the state
that no step changes (assumption 1), so a statement about every state holds for every configuration. -/
structure Cfg where
  /-- `NCPU` -/
  ncpu : Nat
  /-- `NBRIDGE` -/
  nbridge : Nat
  /-- `NSLOT` -/
  nslot : Nat
  /-- `HCNT_MASK` -/
  hcntMask : Word
  /-- `GEN_HI_MASK` -/
  genHiMask : Word
  /-- `GEN_LO_MASK` -/
  genLoMask : Word
  /-- `MANAGED_MASK` -/
  managedMask : Word
  /-- `CPU_TIMER_IRQ`, an IRQ handle -/
  cpuTimerIrq : Nat
  /-- `HEART_COUNTER_IRQ`, an IRQ handle -/
  heartCounterIrq : Nat
  /-- `PIN`: the pinned lines with their CPUs; a line not listed is not pinned -/
  pin : List (Line × CpuId)
  /-- `IPI_LINE`: the dedicated line of CPU 0, of CPU 1, and so on, one for each CPU -/
  ipiLines : List Line
  /-- `FLOW`: the lines with an operation of their own; a line not listed has MASK_ACK -/
  flow : List (Line × FlowOp)
  /-- `RouteVal`: the triples (bridge, slot, line) with a value of their own; a triple not listed has the
  opaque value `Config.routeVal` (assumption 6) -/
  routeVal : List RouteRow
  /-- `SOURCE_LINES`: bit `L` set means the device agent may assert line `L` -/
  sourceLines : Word
  /-- `CAUSE_ERR_FIELD`: the top bits from this one up to bit 63 (assumption 6) -/
  causeErrLow : Line
  /-- `CALL_BIT` -/
  callBit : Line
  /-- `HEART_BASE` (R63) -/
  heartBase : Nat
  /-- `OFF_STATUS` -/
  offStatus : Nat
  /-- `OFF_SET` -/
  offSet : Nat
  /-- `OFF_CLEAR` -/
  offClear : Nat
  /-- `OFF_MASK(0)`, `OFF_MASK(1)`, and so on -/
  offMask : List Nat
  /-- `OFF_CAUSE` -/
  offCause : Nat
  /-- `HEART_ENDIAN` (R61) -/
  endian : Endian
  deriving DecidableEq, Repr

/-- `ERR_MASK`, fixed: bits 51..63 (R6). -/
def errMask : Word := 0xFFF8000000000000

/-- `RESCHED_BIT`, fixed: bit 0 (R6). -/
def reschedBit : Line := 0

/-- Which snapshot register a generic band reads first (R177). -/
inductive SnapFirst where
  | status | mask
  deriving DecidableEq, Repr, Inhabited

/-- What is drawn in one step of a CPU agent: the CPU's five enables `ie` and its timer request
`tpend` (R33), and the free choice of R177. -/
structure Draw where
  ie : BitVec 5
  tpend : Bool
  first : SnapFirst
  deriving DecidableEq, Repr, Inhabited

/-- Which agent takes the next step (R20), and what it chooses. -/
inductive Choice where
  /-- agent CPU `c` takes its step (R37, R172, R201) -/
  | cpu (c : CpuId) (draw : Draw)
  /-- agent CPU `c` takes an exception entry between two commands (R186) -/
  | entry (c : CpuId) (draw : Draw)
  /-- the device agent asserts line `l` (R226) -/
  | devAssert (l : Line)
  /-- the device agent records cause bits `v` (R226) -/
  | devCause (v : Word)
  /-- the bridge agent performs the oldest posted write (R66) -/
  | bridge
  deriving DecidableEq, Repr, Inhabited

/-- One entry of the schedule: a choice of the agents, or an exception entry that a harness delivers
to CPU `c` whatever its dispatcher is doing (95_test_vectors.md X-13). -/
inductive Scheduled where
  | agent (choice : Choice)
  | deliver (c : CpuId) (draw : Draw)
  deriving DecidableEq, Repr

namespace Config

/-- FREE VALUE: which agent steps, and what it draws, when the schedule is used up (assumption 2). -/
opaque freeChoice : Nat → Choice

/-- FREE VALUE: `RouteVal(b, s, l)` where the configuration lists no value, as `CFG0` does everywhere: an
opaque constant function (R6, D19; assumption 6). -/
opaque routeVal : Nat → Nat → Nat → RouteValue

/-- FREE VALUE: by how much `IRQ_CPUTIMER` exceeds 64 (R6, D11; assumption 6). -/
opaque cpuTimerExcess : Nat

/-- FREE VALUE: `IRQ_HEARTCOUNT` (R6, D11; assumption 6). -/
opaque heartCountIrq : Nat

/-- FREE VALUE: the lowest bit of the OPEN `CAUSE_ERR_FIELD` (R6, D22; assumption 6). -/
opaque causeErrLow : Line

end Config

/-- The reference configuration `CFG0` (R6), with the candidate addresses of R63 and byte order of R61. -/
def cfg0 : Cfg where
  ncpu := 2
  nbridge := 1
  nslot := 8
  hcntMask := 0x0004000000000000
  genHiMask := 0x0003FFFF00000000
  genLoMask := 0x00000000FFFFFFFF
  managedMask := 0xFFFFFFFFFFFFFFFF
  cpuTimerIrq := Config.cpuTimerExcess + 64
  heartCounterIrq := Config.heartCountIrq
  pin := [(42, 0), (43, 1)]
  ipiLines := [42, 43]
  flow := []
  routeVal := []
  sourceLines := 0xFFFFF3FFFFFFFFFF
  causeErrLow := Config.causeErrLow
  callBit := 1
  heartBase := 0x0FF00000
  offStatus := 0x10030
  offSet := 0x10020
  offClear := 0x10028
  offMask := [0x10000, 0x10008]
  offCause := 0x10040
  endian := .big

end Sys2Proof
end

