-- ==== Sys2Proof/Machine/State.lean ====
section
/-! DEFINITION. The state of the block (10_state.md R20-R40), the reasons a run stops, and the state at power-on (R40). -/

namespace Sys2Proof.Machine

/-- Why a run stops with a fault. -/
inductive Fault where
  /-- Raised by `step` alone, in every state whose sticky `FAULT` field holds `code` (R221: once
  `FAULT` is set, no agent has a step). Safe: it is the spec's own stop. Raising the fault itself is a
  next state, with `FAULT` and `HIST` written. -/
  | stopped (code : FaultCode)
  deriving DecidableEq, Repr

/-- Why a run is refused. -/
inductive Refusal where
  /-- Raised by `exec` for a command that has no meaning yet. Safe: the run stops. No arm raises it. -/
  | notModelled (mnemonic : String)
  /-- Raised by `step` under an ill-formed configuration (R7: a model refuses to run under one). Safe:
  it is the spec's own refusal. -/
  | illFormedConfig
  deriving DecidableEq, Repr

/-- A dispatch band (R31, R171). -/
inductive Band where
  | cpucnt | err | hcnt | genHi | genLo
  deriving DecidableEq, Repr

/-- The phase of a per-line flow (R31). -/
inductive FlowPhase where
  | pre | handler | post
  deriving DecidableEq, Repr

/-- `DISP[c]` (R31). -/
inductive Disp where
  | idle
  | band (b : Band)
  | errAck (sv cv : Word)
  | genHalf (first : SnapFirst) (v : Word)
  | scan (rem : Word)
  | flow (rem : Word) (l : Line) (ph : FlowPhase)
  deriving DecidableEq, Repr

/-- `SEND[c]` (R32). -/
inductive Send where
  | idle
  | asserting (t : CpuId)
  deriving DecidableEq, Repr

/-- An IPI action the receiver recognises (R205). -/
inductive IpiKind where
  | resched | call
  deriving DecidableEq, Repr

/-- The outcome of STARTUP (R220). -/
inductive StartupResult where
  | ok | busy
  deriving DecidableEq, Repr

/-- A slot of a bridge, as a binding names it (R28). -/
structure BridgeSlot where
  bridge : Nat
  slot : Nat
  deriving DecidableEq, Repr

/-- The value of a response (R220). -/
inductive RespValue where
  | unit
  | word (v : Word)
  | assigned (success : Bool)
  | owner (o : Option CpuId)
  | binding (b : Option BridgeSlot)
  | startup (r : StartupResult)
  deriving DecidableEq, Repr

/-- An event of the history (R222). -/
inductive Event where
  | resp (c : CpuId) (op : Op) (v : RespValue)
  | violation (l : Line)
  | fault (c : CpuId) (code : FaultCode)
  | entry (c : CpuId) (b : Band)
  | spurious (c : CpuId)
  | dispatchFixed (c : CpuId) (irq : Nat)
  | errReport (c : CpuId) (bits : List Line) (cause : Word)
  | dispatch (c : CpuId) (l : Line)
  | handle (c : CpuId) (l : Line)
  | ipiAction (c : CpuId) (a : IpiKind)
  deriving DecidableEq, Repr

/-- What a posted bridge write does to its slot: the four pairs `(kind, op)` that R66 performs. -/
inductive BridgeWrite where
  | enSet | enClear | modeSet
  | route (v : RouteValue)
  deriving DecidableEq, Repr

/-- An entry of `BQ` (R29). -/
structure Posted where
  bridge : Nat
  slot : Nat
  write : BridgeWrite
  deriving DecidableEq, Repr

/-- The state of one downstream bridge (R29): `BR_EN[b]`, `BR_MODE[b]`, and `BR_ROUTE[b]` slot by slot. -/
structure Bridge where
  en : Word
  mode : Word
  route : List RouteValue
  deriving DecidableEq, Repr

/-- An address-level access (R62, R64): its address, its width in bytes, and the value of a write. -/
inductive Access where
  | read (addr width : Nat)
  | write (addr width : Nat) (v : Word)
  deriving DecidableEq, Repr

/-- One item of a CPU's program (R37): a command `(w, d)` (R80), or an address-level access, which R60
lets a model offer beside the commands. -/
inductive Item where
  | command (w : BitVec 32) (d : Word)
  | access (a : Access)
  deriving DecidableEq, Repr

/-- The state. A table indexed by CPU has eight slots, one for each value of the field `C`; those below
`NCPU` exist, and no step touches the others (assumption 7). -/
@[ext]
structure State where
  /-- the configuration (R6); no step changes it -/
  cfg : Cfg
  /-- `S`, the pending-status register (R21) -/
  status : Word
  /-- `M[k]`, the per-CPU mask registers (R24) -/
  mask : Vector Word 8
  /-- `CAUSE`, the cause register (R25) -/
  cause : Word
  /-- `OWNER[L]` (R27) -/
  owner : Vector (Option CpuId) 64
  /-- `BIND[L]` (R28) -/
  bind : Vector (Option BridgeSlot) 64
  /-- `BR_EN`, `BR_MODE` and `BR_ROUTE`, bridge by bridge (R29) -/
  bridges : List Bridge
  /-- `BQ`, the posted bridge writes, oldest first (R29) -/
  bq : List Posted
  /-- `MBOX[c]` (R30) -/
  mbox : Vector Word 8
  /-- `DISP[c]` (R31) -/
  disp : Vector Disp 8
  /-- `SEND[c]` (R32) -/
  send : Vector Send 8
  /-- `FAULT` (R34) -/
  fault : Option FaultCode
  /-- `HIST`, oldest event first (R34) -/
  hist : List Event
  /-- each CPU agent's program (R37) -/
  prog : Vector (List Item) 8
  /-- each CPU agent's program index (R37, R40) -/
  index : Vector Nat 8
  /-- `self`, the CPU of the step being taken or last taken (R10); the model's own field -/
  self : CpuId
  /-- what is drawn in the step being taken (R33, R177); the model's own field (assumption 2) -/
  draw : Draw
  /-- whether the command being run was listed in `self`'s program; the model's own field (assumption 12) -/
  listed : Bool
  /-- whether the entry in progress on CPU `c` was listed in its program; the model's own field (assumption 12) -/
  entryListed : Vector Bool 8
  /-- the value the last address-level read of CPU `c` returned (R64); the model's own field (assumption 10) -/
  readData : Vector Word 8
  /-- the choices of the steps to come, the next one first; the model's own field (assumption 2) -/
  sched : List Scheduled
  /-- how many free choices have been used; the model's own field (assumption 2) -/
  tick : Nat
  deriving DecidableEq, Repr

/-- A bridge at power-on: the spec leaves every bit a draw; the model names zero (assumption 4). -/
def Bridge.powerOn (nslot : Nat) : Bridge := ⟨0, 0, List.replicate nslot 0⟩

/-- Power-on (R40, R260) under `CFG0`, with no program and no schedule. `S`, `M`, `CAUSE` and the bridge
registers, which R40 leaves to a draw, are zero (DESIGN CHOICE, assumption 4). -/
def State.reset : State where
  cfg := cfg0
  status := 0
  mask := Vector.replicate 8 0
  cause := 0
  owner := Vector.replicate 64 none
  bind := Vector.replicate 64 none
  bridges := List.replicate cfg0.nbridge (Bridge.powerOn cfg0.nslot)
  bq := []
  mbox := Vector.replicate 8 0
  disp := Vector.replicate 8 .idle
  send := Vector.replicate 8 .idle
  fault := none
  hist := []
  prog := Vector.replicate 8 []
  index := Vector.replicate 8 0
  self := 0
  draw := ⟨0, false, .status⟩
  listed := true
  entryListed := Vector.replicate 8 false
  readData := Vector.replicate 8 0
  sched := []
  tick := 0

end Sys2Proof.Machine
end

