-- ==== Sys2Proof/Machine/Operands.lean ====
section
/-! DEFINITION. Bit values and scans (00_scope.md R8, R9), the configuration's tables and its well-formedness (R6, R7), and the register an address names (20_memory.md R62-R64). -/

namespace Sys2Proof.Machine

/-! ### Bits -/

/-- `bit(n)`, the 64-bit value `1 << n` (R8). -/
def bit (n : Nat) : Word := 1#64 <<< n

/-- The set bits of `v` below `n`, in descending order. -/
def bitsDescBelow (v : Word) : (n : Nat) → n ≤ 64 → List Line
  | 0, _ => []
  | n + 1, h =>
    if v.getLsbD n then ⟨n, h⟩ :: bitsDescBelow v n (Nat.le_of_succ_le h)
    else bitsDescBelow v n (Nat.le_of_succ_le h)

/-- `bitsDesc(v)`: the set bit numbers of `v` in descending order (R9). -/
def bitsDesc (v : Word) : List Line := bitsDescBelow v 64 (Nat.le_refl 64)

/-- `msb(v)`: the largest set bit number of `v`; none for zero, where R9 does not define it. -/
def msb (v : Word) : Option Line := (bitsDesc v).head?

/-- The set bit numbers of `v` in ascending order (R204). -/
def bitsAsc (v : Word) : List Line := (bitsDesc v).reverse

/-! ### The configuration -/

/-- `PIN(l)` (R6). -/
def cfgPin (g : Cfg) (l : Line) : Option CpuId := (g.pin.find? (fun p => p.1 == l)).map (·.2)

/-- `IPI_LINE(c)` (R6), for `c < NCPU`. -/
def cfgIpiLine (g : Cfg) (c : CpuId) : Line := g.ipiLines.getD c.val 0

/-- Whether `l` is the IPI line of some CPU that exists (R181). -/
def cfgIsIpiLine (g : Cfg) (l : Line) : Bool := (g.ipiLines.take g.ncpu).contains l

/-- `FLOW[l]` (R6). -/
def cfgFlow (g : Cfg) (l : Line) : FlowOp := ((g.flow.find? (fun p => p.1 == l)).map (·.2)).getD .maskAck

/-- `RouteVal(b, slot, l)` (R6, R140). -/
def cfgRouteVal (g : Cfg) (b slot : Nat) (l : Line) : RouteValue :=
  ((g.routeVal.find? (fun r => r.bridge == b && r.slot == slot && r.line == l)).map (·.value)).getD
    (Config.routeVal b slot l.val)

/-- Whether line `l` is in `SOURCE_LINES` (R6). -/
def cfgIsSource (g : Cfg) (l : Line) : Bool := g.sourceLines.getLsbD l.val

/-- Owner choice of STARTUP (R156): the pinned CPU, else CPU 0. -/
def ownerChoice (g : Cfg) (l : Line) : CpuId := (cfgPin g l).getD 0

/-- A configuration is well formed (R7), with the constraints of R6's table (assumption 20). That an
`IPI_LINE` value is below 64, and that `CAUSE_ERR_FIELD` is a range of top bits, holds by its type.
DESIGN CHOICE (assumption 26): the length of the list of mask-register offsets is not checked. -/
def cfgWellFormed (g : Cfg) : Bool := decide (
  (2 ≤ g.ncpu ∧ g.ncpu ≤ 8) ∧ (1 ≤ g.nbridge ∧ g.nbridge ≤ 256) ∧ (1 ≤ g.nslot ∧ g.nslot ≤ 64)
  ∧ g.pin.all (fun p => decide (p.2.val < g.ncpu)) = true
  ∧ (g.ipiLines.length = g.ncpu ∧ g.ipiLines.Nodup)
  ∧ errMask &&& g.hcntMask = 0 ∧ errMask &&& g.genHiMask = 0 ∧ errMask &&& g.genLoMask = 0
  ∧ g.hcntMask &&& g.genHiMask = 0 ∧ g.hcntMask &&& g.genLoMask = 0 ∧ g.genHiMask &&& g.genLoMask = 0
  ∧ g.callBit ≠ reschedBit ∧ 64 ≤ g.cpuTimerIrq)

/-! ### The HEART register space -/

/-- The HEART interrupt registers (R21-R25). -/
inductive HeartReg where
  | status | set | clear
  | mask (k : CpuId)
  | cause
  deriving DecidableEq, Repr

/-- `OFF_MASK(k) = off` for some `k < NCPU`, the least such `k` (R64; assumption 11). DESIGN CHOICE (assumption
26): where the configuration's list is shorter than `NCPU`, the mask registers beyond it have no address. -/
def maskSlotAt (g : Cfg) (off : Nat) : Option CpuId :=
  (List.finRange 8).find? (fun k => decide (k.val < g.ncpu) && (g.offMask[k.val]? == some off))

/-- The register at offset `off` of the block (R64), by the rows of its table from the top. -/
def regAtOffset (g : Cfg) (off : Nat) : Option HeartReg :=
  if off = g.offStatus then some .status
  else if off = g.offSet then some .set
  else if off = g.offClear then some .clear
  else match maskSlotAt g off with
    | some k => some (.mask k)
    | none => if off = g.offCause then some .cause else none

/-- The register an access of `width` bytes at `addr` names: only an aligned 64-bit access at one of
the block's offsets is admitted (R62, R64). -/
def regAt (g : Cfg) (addr width : Nat) : Option HeartReg :=
  if width = 8 ∧ addr % 8 = 0 ∧ g.heartBase ≤ addr then regAtOffset g (addr - g.heartBase) else none

/-- The eight bytes of a register value in the order of `HEART_ENDIAN`, lowest address first: the
byte-level view of R61, which no rule depends on. -/
def registerBytes (g : Cfg) (v : Word) : List (BitVec 8) :=
  let little := (List.range 8).map (fun i => v.extractLsb' (8 * i) 8)
  match g.endian with
  | .little => little
  | .big => little.reverse

/-- `CAUSE_ERR_FIELD` of a cause value, `bits[63:lo]` zero-extended (R8, R25). -/
def causeErrField (g : Cfg) (v : Word) : Word := v >>> g.causeErrLow.val

end Sys2Proof.Machine
end

