-- ==== Sys2Proof/Machine/Ops.lean ====
section
/-! DEFINITION. The named operations on the state: the primitives of 00_scope.md R10, the register writes of 10_state.md R21-R24, the posted bridge writes and the flush (20_memory.md R66, R67), responses (60_exceptions.md R220), taking a fault (R221), the end of an entry (R231), and the parts the controller commands and the dispatcher share. -/

namespace Sys2Proof.Machine

/-- What a meaning answers. -/
abbrev Out := Host.Outcome State Fault Refusal

/-! ### Single fields -/

/-- Write `M[k]` as a whole (R24). -/
def State.setMask (k : CpuId) (v : Word) (s : State) : State := { s with mask := s.mask.set k v }

/-- Write `OWNER[l]` (R27). -/
def State.setOwner (l : Line) (o : Option CpuId) (s : State) : State := { s with owner := s.owner.set l o }

/-- Write `BIND[l]` (R28). -/
def State.setBind (l : Line) (b : Option BridgeSlot) (s : State) : State := { s with bind := s.bind.set l b }

/-- Write `MBOX[c]` (R30). -/
def State.setMbox (c : CpuId) (v : Word) (s : State) : State := { s with mbox := s.mbox.set c v }

/-- Write `DISP[c]` (R31). -/
def State.setDisp (c : CpuId) (x : Disp) (s : State) : State := { s with disp := s.disp.set c x }

/-- Write `SEND[c]` (R32). -/
def State.setSend (c : CpuId) (x : Send) (s : State) : State := { s with send := s.send.set c x }

/-- Remember whether the entry of CPU `c` was listed in its program (assumption 12). -/
def State.setEntryListed (c : CpuId) (b : Bool) (s : State) : State :=
  { s with entryListed := s.entryListed.set c b }

/-- Keep the value an address-level read returned (assumption 10). -/
def State.setReadData (c : CpuId) (v : Word) (s : State) : State := { s with readData := s.readData.set c v }

/-- Write `v` to `SET`: `S <- S | v` (R22). -/
def State.statusSet (v : Word) (s : State) : State := { s with status := s.status ||| v }

/-- Write `v` to `CLEAR`: `S <- S & ~v` (R23). -/
def State.statusClear (v : Word) (s : State) : State := { s with status := s.status &&& ~~~v }

/-- `CAUSE <- CAUSE | v` (R226). -/
def State.causeSet (v : Word) (s : State) : State := { s with cause := s.cause ||| v }

/-! ### Events, responses, faults -/

/-- `emit E` (R10): append `E` to `HIST`. -/
def State.emit (e : Event) (s : State) : State := { s with hist := s.hist ++ [e] }

/-- `respond v` (R10): append `Resp(self, op, v)`. -/
def State.respond (op : Op) (v : RespValue) (s : State) : State := s.emit (.resp s.self op v)

/-- The issuing program's index advances by one (R37). -/
def State.advance (s : State) : State := { s with index := s.index.set s.self (s.index[s.self] + 1) }

/-- A command completes: it responds, and the program index advances (R37, R220). -/
def State.complete (op : Op) (v : RespValue) (s : State) : State := (s.respond op v).advance

/-- `raise Fault(code)` (R10, R221): set the sticky `FAULT` if it is none, emit the event, change
nothing else. The program index does not advance (R37). -/
def State.raise (code : FaultCode) (s : State) : State :=
  { s with fault := s.fault.or (some code), hist := s.hist ++ [.fault s.self code] }

/-- The end of an entry (R231): `DISP[self] <- Idle` and `Resp(self, IRQ_ENTRY, unit)`. The program
index advances if the entry was listed in the program (R170, R186). -/
def State.endEntry (listed : Bool) (s : State) : State :=
  let t := (s.setDisp s.self .idle).respond .irqEntry .unit
  if listed then t.advance else t

/-- The number of a response that has one (R220): success and `BUSY` are 1, failure and `OK` are 0. -/
def responseCode (v : RespValue) : Option Nat :=
  match v with
  | .assigned true => some 1
  | .assigned false => some 0
  | .startup .ok => some 0
  | .startup .busy => some 1
  | .unit => none
  | .word _ => none
  | .owner _ => none
  | .binding _ => none

/-- The range check of `L` (R81), before the rest of a command. -/
def withLine (l : Nat) (s : State) (k : Line → State) : State :=
  if h : l < 64 then k ⟨l, h⟩ else s.raise .irqRange

/-- The range check of `C` (R81), before the rest of a command. -/
def withCpu (c : CpuId) (s : State) (k : State) : State :=
  if c.val < s.cfg.ncpu then k else s.raise .cpuRange

/-! ### Posted bridge writes -/

/-- Perform one write on a bridge (R66). -/
def Bridge.perform (slot : Nat) (w : BridgeWrite) (br : Bridge) : Bridge :=
  match w with
  | .enSet => { br with en := br.en ||| bit slot }
  | .enClear => { br with en := br.en &&& ~~~(bit slot) }
  | .modeSet => { br with mode := br.mode ||| bit slot }
  | .route v => { br with route := br.route.set slot v }

/-- Perform a posted write on the bridge it names (R66). -/
def performPosted (bs : List Bridge) (p : Posted) : List Bridge :=
  match bs[p.bridge]? with
  | some br => bs.set p.bridge (br.perform p.slot p.write)
  | none => bs

/-- `BridgePost` (R10): append to `BQ`. -/
def State.post (p : Posted) (s : State) : State := { s with bq := s.bq ++ [p] }

/-- `BridgeFlush()` (R67): perform every entry of `BQ` in order. -/
def State.flush (s : State) : State := { s with bridges := s.bq.foldl performPosted s.bridges, bq := [] }

/-- The bridge agent's step (R66): remove the oldest entry and perform it; nothing when `BQ` is empty. -/
def State.bridgeStep (s : State) : State :=
  match s.bq with
  | [] => s
  | p :: rest => { s with bridges := performPosted s.bridges p, bq := rest }

/-! ### The registers by name and by address -/

/-- `RegRead(r)` (R10, R64): the readable registers. It has no side effect (R65). -/
def State.regRead (r : HeartReg) (s : State) : Option Word :=
  match r with
  | .status => some s.status
  | .set => none
  | .clear => none
  | .mask k => some s.mask[k]
  | .cause => some s.cause

/-- `RegWrite(r, v)` (R10, R64): the writable registers. -/
def State.regWrite (r : HeartReg) (v : Word) (s : State) : Option State :=
  match r with
  | .status => none
  | .set => some (s.statusSet v)
  | .clear => some (s.statusClear v)
  | .mask k => some (s.setMask k v)
  | .cause => none

/-- An address-level access by `self` (R62, R64). A read leaves the value it returns in the model's
`readData`. No response is emitted (95_test_vectors.md A-14); the program index advances. -/
def State.access (a : Access) (s : State) : State :=
  match a with
  | .read addr width =>
    match (regAt s.cfg addr width).bind (fun r => s.regRead r) with
    | some v => (s.setReadData s.self v).advance
    | none => s.raise .mmioAccess
  | .write addr width v =>
    match (regAt s.cfg addr width).bind (fun r => s.regWrite r v) with
    | some t => t.advance
    | none => s.raise .mmioAccess

/-! ### Effects shared by the commands and the dispatcher -/

/-- The effect of ACK (R144). -/
def State.ackLine (l : Line) (s : State) : State := s.statusClear (bit l.val)

/-- The effect of MASK (R146): AND-off in the owner's mask register; a no-op when unowned (R123). -/
def State.maskLine (l : Line) (s : State) : State :=
  match s.owner[l] with
  | some c => s.setMask c (s.mask[c] &&& ~~~(bit l.val))
  | none => s

/-- The effect of UNMASK (R148): OR in the owner's mask register; a no-op when unowned (R123). -/
def State.unmaskLine (l : Line) (s : State) : State :=
  match s.owner[l] with
  | some c => s.setMask c (s.mask[c] ||| bit l.val)
  | none => s

/-- The effect of MASK_ACK (R150): the mask part, then the ack part, always. -/
def State.maskAckLine (l : Line) (s : State) : State := (s.maskLine l).ackLine l

/-- The bridge part of STARTUP of line `l` (R140): for a bound line, post the slot's enable, mode and routing
writes, and flush; for an unbound line, nothing. DEDUCED (assumption 25): the STARTUP "of any line" that R270
says performs an earlier posted clear is one that R140 has flush. -/
def State.startBridge (l : Line) (s : State) : State :=
  match s.bind[l] with
  | some b =>
    (((s.post ⟨b.bridge, b.slot, .enSet⟩).post ⟨b.bridge, b.slot, .modeSet⟩).post
      ⟨b.bridge, b.slot, .route (cfgRouteVal s.cfg b.bridge b.slot l)⟩).flush
  | none => s

/-- The effect of STARTUP on an Idle line (R140): own, clear the pending assertion, enable delivery to
the owner, then the bridge. -/
def State.startLine (l : Line) (s : State) : State :=
  let o := ownerChoice s.cfg l
  let t := (s.setOwner l (some o)).statusClear (bit l.val)
  (t.setMask o (t.mask[o] ||| bit l.val)).startBridge l

/-- The bridge part of SHUTDOWN (R142): post the slot-enable clear, without a flush. -/
def State.stopBridge (l : Line) (s : State) : State :=
  match s.bind[l] with
  | some b => s.post ⟨b.bridge, b.slot, .enClear⟩
  | none => s

/-- The effect of SHUTDOWN (R142). -/
def State.stopLine (l : Line) (s : State) : State := ((s.maskLine l).stopBridge l).setOwner l none

/-- The handler an action bit gets (R205); an unrecognised bit gets none. -/
def actionOf (g : Cfg) (k : Line) : Option IpiKind :=
  if k = reschedBit then some .resched
  else if k = g.callBit then some .call
  else none

/-- The handlers of an action set, in ascending bit order (R204, R205). -/
def actionsOf (g : Cfg) (a : Word) : List IpiKind := (bitsAsc a).filterMap (actionOf g)

/-- The effect of IPI_RECEIVE on `self` (R204), without its response: read and zero the mailbox, clear
the local IPI line, then one `IpiAction` event for each recognised bit. -/
def State.receive (s : State) : State :=
  let a := s.mbox[s.self]
  let t := (s.setMbox s.self 0).statusClear (bit (cfgIpiLine s.cfg s.self).val)
  { t with hist := t.hist ++ (actionsOf s.cfg a).map (Event.ipiAction s.self) }

end Sys2Proof.Machine
end

