-- ==== Sys2Proof/Machine/Controller.lean ====
section
/-! DEFINITION. The controller commands (42_controller.md R140-R159), each one step under the global lock. -/

namespace Sys2Proof.Machine

/-- STARTUP (R140, R141). -/
def execStartup (l : Nat) (s : State) : Out :=
  .next (withLine l s fun L =>
    match s.owner[L] with
    | some _ => (s.emit (.violation L)).complete .startup (.startup .busy)
    | none => (s.startLine L).complete .startup (.startup .ok))

/-- SHUTDOWN (R142). -/
def execShutdown (l : Nat) (s : State) : Out :=
  .next (withLine l s fun L => (s.stopLine L).complete .shutdown .unit)

/-- ACK (R144). -/
def execAck (l : Nat) (s : State) : Out :=
  .next (withLine l s fun L => (s.ackLine L).complete .ack .unit)

/-- MASK (R146). -/
def execMask (l : Nat) (s : State) : Out :=
  .next (withLine l s fun L => (s.maskLine L).complete .mask .unit)

/-- UNMASK (R148). -/
def execUnmask (l : Nat) (s : State) : Out :=
  .next (withLine l s fun L => (s.unmaskLine L).complete .unmask .unit)

/-- MASK_ACK (R150). -/
def execMaskAck (l : Nat) (s : State) : Out :=
  .next (withLine l s fun L => (s.maskAckLine L).complete .maskAck .unit)

/-- `M[k] <- 0` for every CPU that exists, `OWNER[L] <- none` for every line (R154). -/
def State.initController (s : State) : State :=
  { s with
    mask := s.mask.mapFinIdx (fun k v _ => if k < s.cfg.ncpu then 0 else v)
    owner := Vector.replicate 64 none }

/-- CTRL_INIT (R154). -/
def execCtrlInit (s : State) : Out := .next (s.initController.complete .ctrlInit .unit)

/-- CPU_RESET (R155). -/
def execCpuReset (c : CpuId) (s : State) : Out :=
  .next (withCpu c s ((s.setMask c 0).complete .cpuReset .unit))

end Sys2Proof.Machine
end

