-- ==== Sys2Proof/Machine/Flags.lean ====
section
/-! DEFINITION. The block has no condition codes (10_state.md R38). What it computes from its registers is the request outputs (R26), the CPU's five-bit summary (R33), the band it selects (43_dispatch.md R171), and the per-line views (R39). -/

namespace Sys2Proof.Machine

/-- `pend[k] = S & M[k]` (R26). -/
def pend (s : State) (k : CpuId) : Word := s.status &&& s.mask[k]

/-- `raw_ERR[k]` (R26). -/
def rawErr (s : State) (k : CpuId) : Bool := (pend s k &&& errMask) != 0

/-- `raw_HCNT[k]` (R26). -/
def rawHcnt (s : State) (k : CpuId) : Bool := (pend s k &&& s.cfg.hcntMask) != 0

/-- `raw_GEN_HI[k]` (R26). -/
def rawGenHi (s : State) (k : CpuId) : Bool := (pend s k &&& s.cfg.genHiMask) != 0

/-- `raw_GEN_LO[k]` (R26). -/
def rawGenLo (s : State) (k : CpuId) : Bool := (pend s k &&& s.cfg.genLoMask) != 0

/-- `sum5`, bit 4 first (R33). -/
def sum5 (s : State) (k : CpuId) (x : Draw) : BitVec 5 :=
  (BitVec.ofBool (x.tpend && x.ie.getLsbD 4)) ++ (BitVec.ofBool (rawErr s k && x.ie.getLsbD 3))
    ++ (BitVec.ofBool (rawHcnt s k && x.ie.getLsbD 2)) ++ (BitVec.ofBool (rawGenHi s k && x.ie.getLsbD 1))
    ++ (BitVec.ofBool (rawGenLo s k && x.ie.getLsbD 0))

/-- The band of the highest set bit of the summary; none for a zero summary (R170, R171). -/
def bandOf (sum : BitVec 5) : Option Band :=
  if sum.getLsbD 4 then some .cpucnt
  else if sum.getLsbD 3 then some .err
  else if sum.getLsbD 2 then some .hcnt
  else if sum.getLsbD 1 then some .genHi
  else if sum.getLsbD 0 then some .genLo
  else none

/-- The per-line views of R39. -/
inductive LineView where
  | idle
  | enabled (c : CpuId)
  | masked (c : CpuId)
  deriving DecidableEq, Repr

/-- The view of line `l` (R39): Idle when unowned; Active otherwise, enabled or masked by its bit of the
owner's mask register. -/
def lineView (s : State) (l : Line) : LineView :=
  match s.owner[l] with
  | none => .idle
  | some c => if s.mask[c].getLsbD l.val then .enabled c else .masked c

end Sys2Proof.Machine
end

