-- ==== Sys2Proof/Machine/FrontEnd.lean ====
section
/-! DEFINITION. The dispatch front-end (43_dispatch.md R170-R186): IRQ_ENTRY, which takes a hardware exception entry on CPU `self`, and the dispatcher steps that follow it. Each definition is one step. -/

namespace Sys2Proof.Machine

/-- IRQ_ENTRY (R170): a zero summary ends the entry; otherwise the highest band is entered and the
response comes with the entry's last step. -/
def execIrqEntry (s : State) : Out :=
  .next (
    if s.disp[s.self] = .idle then
      match bandOf (sum5 s s.self s.draw) with
      | none => (s.emit (.spurious s.self)).endEntry s.listed
      | some b => ((s.emit (.entry s.self b)).setDisp s.self (.band b)).setEntryListed s.self s.listed
    else s.raise .nestedEntry)

/-- The end of the entry in progress on `self`. -/
def State.finishEntry (s : State) : State := s.endEntry s.entryListed[s.self]

/-- `Band(CPUCNT)` (R173). -/
def dispCpucnt (s : State) : State := (s.emit (.dispatchFixed s.self s.cfg.cpuTimerIrq)).finishEntry

/-- `Band(HCNT)` (R176). -/
def dispHcnt (s : State) : State := (s.emit (.dispatchFixed s.self s.cfg.heartCounterIrq)).finishEntry

/-- `Band(ERR)`, E1 (R174). -/
def dispErrRead (s : State) : State := s.setDisp s.self (.errAck s.status s.cause)

/-- `ErrAck(sv, cv)`, E2 (R175). -/
def dispErrAck (sv cv : Word) (s : State) : State :=
  ((s.statusClear errMask).emit (.errReport s.self (bitsDesc (sv &&& errMask)) cv)).finishEntry

/-- The generic bands, G1 (R177): the first snapshot read. -/
def dispSnapFirst (s : State) : State :=
  s.setDisp s.self (.genHalf s.draw.first
    (match s.draw.first with
    | .status => s.status
    | .mask => s.mask[s.self]))

/-- The snapshot of R178: the value read first, with the register read now. -/
def snapshot (first : SnapFirst) (v : Word) (s : State) : Word :=
  match first with
  | .status => v &&& s.cfg.managedMask &&& s.mask[s.self]
  | .mask => s.status &&& s.cfg.managedMask &&& v

/-- `GenHalf(first, v)`, G2 (R178). -/
def dispSnapSecond (first : SnapFirst) (v : Word) (s : State) : State :=
  if snapshot first v s = 0 then (s.emit (.spurious s.self)).finishEntry
  else s.setDisp s.self (.scan (snapshot first v s))

/-- `Scan(rem)` (R179). -/
def dispScan (rem : Word) (s : State) : State :=
  match msb rem with
  | none => s.finishEntry
  | some l => (s.emit (.dispatch s.self l)).setDisp s.self (.flow (rem &&& ~~~(bit l.val)) l .pre)

/-- `Flow(rem, L, Pre)` (R180). -/
def dispFlowPre (rem : Word) (l : Line) (s : State) : State :=
  (match cfgFlow s.cfg l with
    | .maskAck => s.maskAckLine l
    | .ack => s.ackLine l).setDisp s.self (.flow rem l .handler)

/-- `Flow(rem, L, Handler)` (R181). -/
def dispFlowHandler (rem : Word) (l : Line) (s : State) : State :=
  (if cfgIsIpiLine s.cfg l then s.receive else s.emit (.handle s.self l)).setDisp s.self (.flow rem l .post)

/-- `Flow(rem, L, Post)` (R182). -/
def dispFlowPost (rem : Word) (l : Line) (s : State) : State :=
  (s.unmaskLine l).setDisp s.self (.scan rem)

/-- The dispatcher step of `self` (R172-R182); none when its dispatcher is Idle. -/
def State.dispatchStep (s : State) : State :=
  match s.disp[s.self] with
  | .idle => s
  | .band .cpucnt => dispCpucnt s
  | .band .err => dispErrRead s
  | .band .hcnt => dispHcnt s
  | .band .genHi => dispSnapFirst s
  | .band .genLo => dispSnapFirst s
  | .errAck sv cv => dispErrAck sv cv s
  | .genHalf first v => dispSnapSecond first v s
  | .scan rem => dispScan rem s
  | .flow rem l .pre => dispFlowPre rem l s
  | .flow rem l .handler => dispFlowHandler rem l s
  | .flow rem l .post => dispFlowPost rem l s

end Sys2Proof.Machine
end

