-- ==== Sys2Proof/Machine/Ipi.lean ====
section
/-! DEFINITION. The IPI mailbox commands (44_ipi.md R200-R207). -/

namespace Sys2Proof.Machine

/-- IPI_SEND, phase 1 (R200): it does not respond; phase 2 does. -/
def execIpiSend (c : CpuId) (d : Word) (s : State) : Out :=
  .next (withCpu c s ((s.setMbox c (s.mbox[c] ||| d)).setSend s.self (.asserting c)))

/-- IPI_SEND, phase 2 (R201): assert the target's IPI line, and complete. -/
def State.assertIpi (t : CpuId) (s : State) : State :=
  ((s.statusSet (bit (cfgIpiLine s.cfg t).val)).setSend s.self .idle).complete .ipiSend .unit

/-- IPI_RECEIVE (R204). -/
def execIpiReceive (s : State) : Out :=
  .next (s.receive.complete .ipiReceive (.word s.mbox[s.self]))

end Sys2Proof.Machine
end

