-- ==== Sys2Proof/Machine/RegisterAccess.lean ====
section
/-! DEFINITION. The register access commands (40_register_access.md R100-R106). Each is one step of the issuing CPU and takes no lock. -/

namespace Sys2Proof.Machine

/-- RD_STATUS (R100). -/
def execRdStatus (s : State) : Out := .next (s.complete .rdStatus (.word s.status))

/-- WR_SET (R101). -/
def execWrSet (d : Word) (s : State) : Out := .next ((s.statusSet d).complete .wrSet .unit)

/-- WR_CLEAR (R102). -/
def execWrClear (d : Word) (s : State) : Out := .next ((s.statusClear d).complete .wrClear .unit)

/-- RD_MASK (R103). -/
def execRdMask (c : CpuId) (s : State) : Out :=
  .next (withCpu c s (s.complete .rdMask (.word s.mask[c])))

/-- WR_MASK (R104). -/
def execWrMask (c : CpuId) (d : Word) (s : State) : Out :=
  .next (withCpu c s ((s.setMask c d).complete .wrMask .unit))

/-- RD_CAUSE (R105). -/
def execRdCause (s : State) : Out := .next (s.complete .rdCause (.word s.cause))

end Sys2Proof.Machine
end

