-- ==== Sys2Proof/Machine/Tables.lean ====
section
/-! DEFINITION. The ownership table and bridge binding commands (41_ownership_binding.md R120-R127), each one step under the global lock. -/

namespace Sys2Proof.Machine

/-- ASSIGN (R120): a refused assignment is a response and a `Violation` event, not a fault. -/
def execAssign (l : Nat) (c : CpuId) (s : State) : Out :=
  .next (withLine l s fun L => withCpu c s
    (match s.owner[L] with
    | some _ => (s.emit (.violation L)).complete .assign (.assigned false)
    | none => (s.setOwner L (some c)).complete .assign (.assigned true)))

/-- RELEASE (R121). -/
def execRelease (l : Nat) (s : State) : Out :=
  .next (withLine l s fun L => (s.setOwner L none).complete .release .unit)

/-- OWNER_OF (R122). -/
def execOwnerOf (l : Nat) (s : State) : Out :=
  .next (withLine l s fun L => s.complete .ownerOf (.owner s.owner[L]))

/-- BIND (R125): the range checks in the order of R81, then the double bind (R229). -/
def execBind (l b slot : Nat) (s : State) : Out :=
  .next (withLine l s fun L =>
    if b < s.cfg.nbridge then
      if slot < s.cfg.nslot then
        match s.bind[L] with
        | some _ => s.raise .doubleBind
        | none => (s.setBind L (some ⟨b, slot⟩)).complete .bind .unit
      else s.raise .slotRange
    else s.raise .bridgeRange)

/-- LOOKUP (R126). -/
def execLookup (l : Nat) (s : State) : Out :=
  .next (withLine l s fun L => s.complete .lookup (.binding s.bind[L]))

end Sys2Proof.Machine
end

