-- ==== Sys2Proof/Machine/Dispatch.lean ====
section
/-! DEFINITION. One arm for each command of the opcode map (30_encoding.md R84). -/

namespace Sys2Proof.Machine

def exec (i : Instr) (s : State) : Host.Outcome State Fault Refusal :=
  match i with
  | .rdStatus => Sys2Proof.Machine.execRdStatus s
  | .wrSet d => Sys2Proof.Machine.execWrSet d s
  | .wrClear d => Sys2Proof.Machine.execWrClear d s
  | .rdMask c => Sys2Proof.Machine.execRdMask c s
  | .wrMask c d => Sys2Proof.Machine.execWrMask c d s
  | .rdCause => Sys2Proof.Machine.execRdCause s
  | .assign l c => Sys2Proof.Machine.execAssign l c s
  | .release l => Sys2Proof.Machine.execRelease l s
  | .ownerOf l => Sys2Proof.Machine.execOwnerOf l s
  | .bind l b slot => Sys2Proof.Machine.execBind l b slot s
  | .lookup l => Sys2Proof.Machine.execLookup l s
  | .startup l => Sys2Proof.Machine.execStartup l s
  | .shutdown l => Sys2Proof.Machine.execShutdown l s
  | .ack l => Sys2Proof.Machine.execAck l s
  | .mask l => Sys2Proof.Machine.execMask l s
  | .unmask l => Sys2Proof.Machine.execUnmask l s
  | .maskAck l => Sys2Proof.Machine.execMaskAck l s
  | .ctrlInit => Sys2Proof.Machine.execCtrlInit s
  | .cpuReset c => Sys2Proof.Machine.execCpuReset c s
  | .irqEntry => Sys2Proof.Machine.execIrqEntry s
  | .ipiSend c d => Sys2Proof.Machine.execIpiSend c d s
  | .ipiReceive => Sys2Proof.Machine.execIpiReceive s

end Sys2Proof.Machine
end

