-- ==== Sys2Proof/Machine/Agents.lean ====
section
/-! DEFINITION. The agents' steps (10_state.md R20, R37; 43_dispatch.md R172, R186; 60_exceptions.md R226; 20_memory.md R66): the command fetch of a CPU agent, and what each choice of the schedule does. -/

namespace Sys2Proof.Machine

/-- Whether CPU `c` exists (R6, R236). -/
def State.cpuExists (s : State) (c : CpuId) : Bool := decide (c.val < s.cfg.ncpu)

/-- CPU `c` becomes `self`, with what is drawn for its step (R10, R33). -/
def State.begin (c : CpuId) (x : Draw) (listed : Bool) (s : State) : State :=
  { s with self := c, draw := x, listed := listed }

/-- Run one item of `self`'s program (R37, R82): a decode fault is raised, a command is executed, an
address-level access is performed. -/
def runItem (it : Item) (s : State) : Out :=
  match it with
  | .command w d =>
    match decode w d with
    | .ok i => exec i s
    | .error code => .next (s.raise code)
  | .access a => .next (s.access a)

/-- The step of agent CPU `c` (R37, R172, R201): a dispatcher step while its dispatcher is busy; else
the second phase of an IPI send; else the item at its program index. It has no step past the program's end. -/
def cpuStep (c : CpuId) (x : Draw) (s : State) : Out :=
  let t := s.begin c x true
  match s.disp[c] with
  | .idle =>
    match s.send[c] with
    | .asserting tgt => .next (t.assertIpi tgt)
    | .idle =>
      match s.prog[c][s.index[c]]? with
      | some it => runItem it t
      | none => .next s
  | _ => .next t.dispatchStep

/-- An entry that CPU `c` takes between two commands (R186): only where its dispatcher is Idle. -/
def entryStep (c : CpuId) (x : Draw) (s : State) : Out :=
  if s.disp[c] = .idle then exec .irqEntry (s.begin c x false) else .next s

/-- A step of the device agent that asserts line `l` (R226): only a line of `SOURCE_LINES`. -/
def State.devAssert (l : Line) (s : State) : State :=
  if cfgIsSource s.cfg l then s.statusSet (bit l.val) else s

/-- What a choice of the agents does (R20). A choice of an agent that has no step changes nothing
(assumption 3). -/
def choiceStep (ch : Choice) (s : State) : Out :=
  match ch with
  | .cpu c x => if s.cpuExists c then cpuStep c x s else .next s
  | .entry c x => if s.cpuExists c then entryStep c x s else .next s
  | .devAssert l => .next (s.devAssert l)
  | .devCause v => .next (s.causeSet v)
  | .bridge => .next s.bridgeStep

/-- What an entry of the schedule does. A delivered entry runs IRQ_ENTRY on CPU `c` whatever its
dispatcher is doing, and so may raise NESTED_ENTRY (95_test_vectors.md X-13; assumption 14). -/
def scheduledStep (x : Scheduled) (s : State) : Out :=
  match x with
  | .agent ch => choiceStep ch s
  | .deliver c y => if s.cpuExists c then exec .irqEntry (s.begin c y false) else .next s

/-- The next entry of the schedule; a free choice when it is used up (assumption 2). -/
def State.nextScheduled (s : State) : Scheduled :=
  match s.sched with
  | x :: _ => x
  | [] => .agent (Config.freeChoice s.tick)

/-- The state with that entry used up. -/
def State.popScheduled (s : State) : State :=
  match s.sched with
  | _ :: rest => { s with sched := rest }
  | [] => { s with tick := s.tick + 1 }

/-- Place one command as the whole program of CPU `self`, which is outside an entry and a send, and
schedule that CPU next (assumption 19). -/
def State.placeCommand (w : BitVec 32) (d : Word) (s : State) : State :=
  { s with
    prog := s.prog.set s.self [.command w d]
    index := s.index.set s.self 0
    disp := s.disp.set s.self .idle
    send := s.send.set s.self .idle
    fault := none
    sched := .agent (.cpu s.self s.draw) :: s.sched }

end Sys2Proof.Machine
end

