-- ==== Sys2Proof/Machine/Step.lean ====
section
/-! DEFINITION. One step of the block (10_state.md R20, R37; 00_scope.md R7; 60_exceptions.md R221), and the state in which a given command runs next. -/

namespace Sys2Proof.Machine

/-- One step. Under an ill-formed configuration the model refuses to run (R7); once `FAULT` is set no
agent has a step (R221); otherwise the next entry of the schedule is taken (R20). -/
def step (s : State) : Host.Outcome State Fault Refusal :=
  if cfgWellFormed s.cfg then
    match s.fault with
    | some code => .fault (.stopped code)
    | none => scheduledStep s.nextScheduled s.popScheduled
  else .refused .illFormedConfig

/-- `s` with the command whose bits are `w` as the next command run: bits 31..0 are the command word
and bits 95..32 the data operand; every bit above `nbits` is zero. -/
def State.withFetchWord (s : State) (nbits w : Nat) : State :=
  s.placeCommand (BitVec.ofNat 32 (w % 2 ^ nbits)) (BitVec.ofNat 64 (w % 2 ^ nbits / 0x100000000))

end Sys2Proof.Machine
end

