-- ==== Sys2Proof/Safety.lean ====
section
/-! DEFINITION. The terms in which claims are stated: a completed command, the end of a run (70_reset_and_hazards.md R283), fairness (20_memory.md R66; 43_dispatch.md R186), the lines an entry has dispatched and has still to dispatch, and the invariant of the state. -/

namespace Sys2Proof.Machine

/-- `t` with the command of CPU `s.self` completed: the response is the last event and the program
index of that CPU is one further (R37, R220). -/
def State.answered (s t : State) (op : Op) (v : RespValue) : State :=
  { t with
    hist := t.hist ++ [.resp s.self op v]
    index := t.index.set s.self (t.index[s.self] + 1) }

/-- The state in which CPU `c` takes a step with draws `x`, the schedule's next entry used up and `rest`
to come. -/
def State.issued (c : CpuId) (x : Draw) (fromProgram : Bool) (rest : List Scheduled) (s : State) : State :=
  { s with self := c, draw := x, listed := fromProgram, sched := rest }

/-- `t` with the entry of CPU `c` ended (R231): its dispatcher is Idle, the response of IRQ_ENTRY is the
last event, and the program index advances if the entry was listed in the program. -/
def State.entryEnded (c : CpuId) (t : State) : State :=
  { t with
    disp := t.disp.set c .idle
    hist := t.hist ++ [.resp c .irqEntry .unit]
    index := if t.entryListed[c] then t.index.set c (t.index[c] + 1) else t.index }

/-- The next step of the run is the choice `ch`, under a well-formed configuration and no fault. -/
structure State.Takes (s : State) (ch : Choice) (rest : List Scheduled) : Prop where
  config : cfgWellFormed s.cfg = true
  unfaulted : s.fault = none
  scheduled : s.sched = .agent ch :: rest

/-- The next step is one of CPU `c`, which exists. -/
structure State.CpuTakes (s : State) (c : CpuId) (x : Draw) (rest : List Scheduled) : Prop where
  takes : s.Takes (.cpu c x) rest
  present : c.val < s.cfg.ncpu

/-- The next step is CPU `c` running the item `it` of its program: no entry and no send of it is in
progress (R37, R172, R201). -/
structure State.Fetches (s : State) (c : CpuId) (x : Draw) (rest : List Scheduled) (it : Item) : Prop where
  cpu : s.CpuTakes c x rest
  dispIdle : s.disp[c] = .idle
  sendIdle : s.send[c] = .idle
  item : s.prog[c][s.index[c]]? = some it

/-- Some line of the band mask `m` is pending and enabled for CPU `k` (R26). -/
def LineRequested (s : State) (k : CpuId) (m : Word) : Prop :=
  ∃ l : Line, s.status.getLsbD l.val = true ∧ s.mask[k].getLsbD l.val = true ∧ m.getLsbD l.val = true

/-- The summary bit of a band is set for CPU `k` with draws `x` (R26, R33, R171). -/
def BandRaised (s : State) (k : CpuId) (x : Draw) : Band → Prop
  | .cpucnt => x.tpend = true ∧ x.ie.getLsbD 4 = true
  | .err => LineRequested s k errMask ∧ x.ie.getLsbD 3 = true
  | .hcnt => LineRequested s k s.cfg.hcntMask ∧ x.ie.getLsbD 2 = true
  | .genHi => LineRequested s k s.cfg.genHiMask ∧ x.ie.getLsbD 1 = true
  | .genLo => LineRequested s k s.cfg.genLoMask ∧ x.ie.getLsbD 0 = true

/-- The priority of a band, 1 the highest (R171). -/
def Band.priority : Band → Nat
  | .cpucnt => 1
  | .err => 2
  | .hcnt => 3
  | .genHi => 4
  | .genLo => 5

/-- The command `i`, run in `s`, may change bit `j` of the mask register of CPU `k`. STARTUP of an Idle line
reaches the line's bit at the owner it chooses (R140, R156); SHUTDOWN, MASK, UNMASK and MASK_ACK reach the line's
bit at its owner (R142, R146, R148, R150); WR_MASK, CTRL_INIT and CPU_RESET write whole registers (R104, R154,
R155); no other command reaches a mask register. -/
def MayChangeMaskBit (s : State) (k : CpuId) (j : Line) : Instr → Prop
  | .startup l => l = j.val ∧ s.owner[j] = none ∧ k = ownerChoice s.cfg j
  | .shutdown l => l = j.val ∧ s.owner[j] = some k
  | .mask l => l = j.val ∧ s.owner[j] = some k
  | .unmask l => l = j.val ∧ s.owner[j] = some k
  | .maskAck l => l = j.val ∧ s.owner[j] = some k
  | .wrMask c _ => k = c ∧ c.val < s.cfg.ncpu
  | .cpuReset c => k = c ∧ c.val < s.cfg.ncpu
  | .ctrlInit => k.val < s.cfg.ncpu
  | .rdStatus => False
  | .wrSet _ => False
  | .wrClear _ => False
  | .rdMask _ => False
  | .rdCause => False
  | .assign _ _ => False
  | .release _ => False
  | .ownerOf _ => False
  | .ack _ => False
  | .bind _ _ _ => False
  | .lookup _ => False
  | .irqEntry => False
  | .ipiSend _ _ => False
  | .ipiReceive => False

/-- The offsets of the registers that exist are pairwise different; the candidate map of R63 has this
(assumption 11). -/
def OffsetsDistinct (g : Cfg) : Prop :=
  g.offMask.length = g.ncpu ∧ ([g.offStatus, g.offSet, g.offClear] ++ g.offMask ++ [g.offCause]).Nodup

/-- One row of the opcode map as R84 prints it. -/
structure PrintedRow where
  op : Op
  matchW : BitVec 32
  maskW : BitVec 32
  data : Bool

/-- The opcode map as R84 prints it: the columns `match`, `mask` and `data`. -/
def printedMap : List PrintedRow :=
  [⟨.rdStatus, 0x08000000, 0xFFFFFFFF, false⟩, ⟨.wrSet, 0x10000000, 0xFFFFFFFF, true⟩,
   ⟨.wrClear, 0x18000000, 0xFFFFFFFF, true⟩, ⟨.rdMask, 0x20000000, 0xF8FFFFFF, false⟩,
   ⟨.wrMask, 0x28000000, 0xF8FFFFFF, true⟩, ⟨.rdCause, 0x30000000, 0xFFFFFFFF, false⟩,
   ⟨.assign, 0x40000000, 0xF8FFFF00, false⟩, ⟨.release, 0x48000000, 0xFFFFFF00, false⟩]
  ++ [⟨.ownerOf, 0x50000000, 0xFFFFFF00, false⟩, ⟨.bind, 0x60000000, 0xFF000000, false⟩,
   ⟨.lookup, 0x68000000, 0xFFFFFF00, false⟩, ⟨.startup, 0x80000000, 0xFFFFFF00, false⟩,
   ⟨.shutdown, 0x88000000, 0xFFFFFF00, false⟩, ⟨.ack, 0x90000000, 0xFFFFFF00, false⟩,
   ⟨.mask, 0x98000000, 0xFFFFFF00, false⟩, ⟨.unmask, 0xA0000000, 0xFFFFFF00, false⟩]
  ++ [⟨.maskAck, 0xA8000000, 0xFFFFFF00, false⟩, ⟨.ctrlInit, 0xC0000000, 0xFFFFFFFF, false⟩,
   ⟨.cpuReset, 0xC8000000, 0xF8FFFFFF, false⟩, ⟨.irqEntry, 0xD0000000, 0xFFFFFFFF, false⟩,
   ⟨.ipiSend, 0xE0000000, 0xF8FFFFFF, true⟩, ⟨.ipiReceive, 0xE8000000, 0xFFFFFFFF, false⟩]

/-- No fault has been raised. Every claim about a run takes this as a premise (R221). -/
def State.unfaulted (s : State) : Prop := s.fault = none

/-- A run has ended successfully (R283). -/
def State.finished (s : State) : Prop :=
  (∀ c : CpuId, c.val < s.cfg.ncpu →
    s.prog[c].length ≤ s.index[c] ∧ s.disp[c] = .idle ∧ s.send[c] = .idle)
  ∧ s.bq = [] ∧ s.fault = none

/-! ### Runs and fairness -/

/-- An infinite run. -/
def IsRun (r : Nat → State) : Prop := ∀ n, step (r n) = .next (r (n + 1))

/-- Weak fairness of the bridge agent (R66): where `BQ` stays non-empty, the bridge agent steps. The
model does not enforce it; a claim that needs it takes it as a premise (assumption 21). -/
def BridgeFair (r : Nat → State) : Prop :=
  ∀ n, (∀ m, n ≤ m → (r m).bq ≠ []) → ∃ m, n ≤ m ∧ (r m).nextScheduled = .agent .bridge

/-- The next step is CPU `c` executing the command `i`, which stands next in its program: no entry and no
send of it is in progress (R37, R172, R201). -/
def State.Runs (s : State) (c : CpuId) (x : Draw) (i : Instr) : Prop :=
  c.val < s.cfg.ncpu ∧ s.nextScheduled = .agent (.cpu c x) ∧ s.disp[c] = .idle ∧ s.send[c] = .idle
  ∧ ∃ w d, s.prog[c][s.index[c]]? = some (.command w d) ∧ decode w d = .ok i

/-- The next step is an entry that CPU `c` takes with draws `x` (R186): one between two commands, one that a
harness delivers, or the IRQ_ENTRY that stands next in its program. Its dispatcher is Idle. -/
def State.TakesEntry (s : State) (c : CpuId) (x : Draw) : Prop :=
  c.val < s.cfg.ncpu ∧ s.disp[c] = .idle
  ∧ (s.nextScheduled = .agent (.entry c x) ∨ s.nextScheduled = .deliver c x ∨ s.Runs c x .irqEntry)

/-- `inputs n c` are the enables and the timer request that CPU `c` presents at step `n` of the run (R33):
an entry draws what its CPU presents at that step. -/
def DrawnFrom (inputs : Nat → CpuId → Draw) (r : Nat → State) : Prop :=
  ∀ n c x, (r n).TakesEntry c x → inputs n c = x

/-- Weak fairness of entries (R186), for the CPU-side inputs `inputs`: where CPU `c`, which exists, is Idle
at step `n`, and its summary is non-zero at every later step at which it is Idle, it takes an entry at step
`n` or later. The model does not enforce it; a claim that needs it takes it as a premise (assumption 21). -/
def EntryFair (inputs : Nat → CpuId → Draw) (r : Nat → State) : Prop :=
  ∀ (n : Nat) (c : CpuId), c.val < (r n).cfg.ncpu → (r n).disp[c] = .idle →
    (∀ m, n ≤ m → (r m).disp[c] = .idle → sum5 (r m) c (inputs m c) ≠ 0) →
    ∃ m, n ≤ m ∧ ∃ x, (r m).TakesEntry c x

/-! ### What an entry dispatches -/

/-- The line a `Dispatch` event of CPU `c` names. -/
def dispatchedBy (c : CpuId) : Event → Option Line
  | .dispatch c' l => if c' = c then some l else none
  | _ => none

/-- The lines that CPU `c` has dispatched, oldest first. -/
def dispatchesOf (c : CpuId) (h : List Event) : List Line := h.filterMap (dispatchedBy c)

/-- The lines that a scan or a flow has still to dispatch. -/
def Disp.toDispatch : Disp → List Line
  | .scan rem => bitsDesc rem
  | .flow rem _ _ => bitsDesc rem
  | _ => []

/-- A generic entry is past its snapshot (R31). -/
def Disp.scanning : Disp → Bool
  | .scan _ => true
  | .flow _ _ _ => true
  | _ => false

/-! ### The invariant -/

/-- Every owner is a CPU that exists (R27). -/
def OwnersExist (s : State) : Prop := ∀ (l : Line) (c : CpuId), s.owner[l] = some c → c.val < s.cfg.ncpu

/-- Every binding names a slot that exists (R28). -/
def BindingsExist (s : State) : Prop :=
  ∀ (l : Line) (b : BridgeSlot), s.bind[l] = some b → b.bridge < s.cfg.nbridge ∧ b.slot < s.cfg.nslot

/-- Every posted write names a slot that exists (R29). -/
def PostedExist (s : State) : Prop :=
  ∀ p ∈ s.bq, p.bridge < s.cfg.nbridge ∧ p.slot < s.cfg.nslot

/-- A bridge has a routing value for each of its slots, and its enable and mode vectors have no bit
beyond them (R29: `NSLOT` bits). -/
def Bridge.shaped (nslot : Nat) (b : Bridge) : Prop :=
  b.route.length = nslot ∧ ∀ i, nslot ≤ i → b.en.getLsbD i = false ∧ b.mode.getLsbD i = false

/-- There are `NBRIDGE` bridges, each of the shape of R29. -/
def BridgesShaped (s : State) : Prop :=
  s.bridges.length = s.cfg.nbridge ∧ ∀ b ∈ s.bridges, b.shaped s.cfg.nslot

/-- The slots of CPUs that do not exist hold nothing (assumption 7). -/
def AbsentCpusQuiet (s : State) : Prop :=
  ∀ c : CpuId, s.cfg.ncpu ≤ c.val →
    s.mask[c] = 0 ∧ s.mbox[c] = 0 ∧ s.disp[c] = .idle ∧ s.send[c] = .idle

/-- The target of every send in flight exists (R32, R200). -/
def SendTargetsExist (s : State) : Prop :=
  ∀ c t : CpuId, s.send[c] = .asserting t → t.val < s.cfg.ncpu

/-- A flow's remaining lines lie below the line it handles (R179, R185). -/
def ScansDescend (s : State) : Prop :=
  ∀ (c : CpuId) (rem : Word) (l : Line) (ph : FlowPhase), s.disp[c] = .flow rem l ph →
    ∀ i, l.val ≤ i → rem.getLsbD i = false

/-- `FAULT` is set exactly when the history holds a fault event (R221). -/
def FaultRecorded (s : State) : Prop :=
  (∀ code, s.fault = some code → ∃ c, Event.fault c code ∈ s.hist)
  ∧ (s.fault = none → ∀ c code, Event.fault c code ∉ s.hist)

/-- The CPU of the last step exists (R10, R236). -/
def SelfExists (s : State) : Prop := s.self.val < s.cfg.ncpu

/-- The invariant: what every reachable state satisfies. -/
structure State.Inv (s : State) : Prop where
  config : cfgWellFormed s.cfg = true
  owners : OwnersExist s
  bindings : BindingsExist s
  posted : PostedExist s
  bridges : BridgesShaped s
  absent : AbsentCpusQuiet s
  targets : SendTargetsExist s
  scans : ScansDescend s
  faults : FaultRecorded s
  self : SelfExists s

end Sys2Proof.Machine
end

