-- ==== Sys2Proof/Certificates/Slice0/Obligations.lean ====
section
/-! DEFINITION. The statements about this model, one for each entry of OBLIGATIONS.json. -/

open Sys2Proof Sys2Proof.Machine

/-! ### The register access commands -/

/-- RD_STATUS and RD_CAUSE respond the register's value and change nothing else (R100, R105). -/
def Obligations.ReadsRespondAndChangeNothing : Prop :=
  ∀ s : State,
    encode .rdStatus = (0x08000000, 0) ∧ encode .rdCause = (0x30000000, 0)
    ∧ exec .rdStatus s = .next (s.answered s .rdStatus (.word s.status))
    ∧ exec .rdCause s = .next (s.answered s .rdCause (.word s.cause))

/-- WR_SET sets and WR_CLEAR clears exactly the status bits that the data operand names (R101, R102). -/
def Obligations.SetAndClearWritesActBitwise : Prop :=
  ∀ (s : State) (d : Word),
    encode (.wrSet d) = (0x10000000, d) ∧ encode (.wrClear d) = (0x18000000, d)
    ∧ (∃ st, exec (.wrSet d) s = .next (s.answered { s with status := st } .wrSet .unit)
        ∧ ∀ i : Line, st.getLsbD i.val = (s.status.getLsbD i.val || d.getLsbD i.val))
    ∧ (∃ st, exec (.wrClear d) s = .next (s.answered { s with status := st } .wrClear .unit)
        ∧ ∀ i : Line, st.getLsbD i.val = (s.status.getLsbD i.val && !d.getLsbD i.val))

/-- RD_MASK and WR_MASK act on the whole mask register of a CPU that exists, and raise CPU_RANGE for one
that does not (R103, R104). -/
def Obligations.MaskRegisterCommands : Prop :=
  ∀ (s : State) (c : CpuId) (d : Word),
    encode (.rdMask c) = (BitVec.ofNat 32 (0x20000000 + 0x1000000 * c.val), 0)
    ∧ encode (.wrMask c d) = (BitVec.ofNat 32 (0x28000000 + 0x1000000 * c.val), d)
    ∧ (s.cfg.ncpu ≤ c.val →
        exec (.rdMask c) s = .next (s.raise .cpuRange) ∧ exec (.wrMask c d) s = .next (s.raise .cpuRange))
    ∧ (c.val < s.cfg.ncpu →
        exec (.rdMask c) s = .next (s.answered s .rdMask (.word s.mask[c]))
        ∧ exec (.wrMask c d) s = .next (s.answered { s with mask := s.mask.set c d } .wrMask .unit))

/-! ### The ownership table and the bridge binding table -/

/-- ASSIGN records an owner for an unowned line, and refuses an owned one with a Violation (R120). -/
def Obligations.AssignRecordsOnlyAFirstOwner : Prop :=
  ∀ (s : State) (l : Nat) (c : CpuId),
    (l < 256 → encode (.assign l c) = (BitVec.ofNat 32 (0x40000000 + 0x1000000 * c.val + l), 0))
    ∧ (64 ≤ l → exec (.assign l c) s = .next (s.raise .irqRange))
    ∧ (l < 64 → s.cfg.ncpu ≤ c.val → exec (.assign l c) s = .next (s.raise .cpuRange))
    ∧ ∀ L : Line, L.val = l → c.val < s.cfg.ncpu →
        (s.owner[L] ≠ none → exec (.assign l c) s
            = .next (s.answered { s with hist := s.hist ++ [.violation L] } .assign (.assigned false)))
        ∧ (s.owner[L] = none → exec (.assign l c) s
            = .next (s.answered { s with owner := s.owner.set L (some c) } .assign (.assigned true)))

/-- RELEASE clears the owner, OWNER_OF and LOOKUP respond the table's entry, and each raises IRQ_RANGE
for a handle of 64 or more (R121, R122, R126). -/
def Obligations.ReleaseOwnerOfAndLookup : Prop :=
  ∀ (s : State) (l : Nat),
    (l < 256 → encode (.release l) = (BitVec.ofNat 32 (0x48000000 + l), 0)
        ∧ encode (.ownerOf l) = (BitVec.ofNat 32 (0x50000000 + l), 0)
        ∧ encode (.lookup l) = (BitVec.ofNat 32 (0x68000000 + l), 0))
    ∧ (64 ≤ l → exec (.release l) s = .next (s.raise .irqRange)
        ∧ exec (.ownerOf l) s = .next (s.raise .irqRange) ∧ exec (.lookup l) s = .next (s.raise .irqRange))
    ∧ ∀ L : Line, L.val = l →
        exec (.release l) s = .next (s.answered { s with owner := s.owner.set L none } .release .unit)
        ∧ exec (.ownerOf l) s = .next (s.answered s .ownerOf (.owner s.owner[L]))
        ∧ exec (.lookup l) s = .next (s.answered s .lookup (.binding s.bind[L]))

/-- BIND records a first binding; its faults come in the order line, bridge, slot, double bind (R125). -/
def Obligations.BindRecordsAFirstBinding : Prop :=
  ∀ (s : State) (l b slot : Nat),
    (l < 256 → b < 256 → slot < 256 →
        encode (.bind l b slot) = (BitVec.ofNat 32 (0x60000000 + 0x10000 * b + 0x100 * slot + l), 0))
    ∧ (64 ≤ l → exec (.bind l b slot) s = .next (s.raise .irqRange))
    ∧ ∀ L : Line, L.val = l →
        (s.cfg.nbridge ≤ b → exec (.bind l b slot) s = .next (s.raise .bridgeRange))
        ∧ (b < s.cfg.nbridge → s.cfg.nslot ≤ slot → exec (.bind l b slot) s = .next (s.raise .slotRange))
        ∧ (b < s.cfg.nbridge → slot < s.cfg.nslot →
            (s.bind[L] ≠ none → exec (.bind l b slot) s = .next (s.raise .doubleBind))
            ∧ (s.bind[L] = none → exec (.bind l b slot) s
                = .next (s.answered { s with bind := s.bind.set L (some ⟨b, slot⟩) } .bind .unit)))

/-! ### The controller commands -/

/-- STARTUP of an Active line responds BUSY and changes nothing but HIST; of an Idle line, it records the
owner of R156, clears the line's pending bit, sets its bit in the owner's mask register, and, for a bound
line, performs the earlier posted writes and then the slot's enable, mode and routing writes
(R140, R141, R156). For an unbound line it posts and flushes nothing, as R140's pseudocode has it; that R270's
STARTUP "of any line" is read as one that R140 has flush is the model's inference (assumption 25). -/
def Obligations.StartupMakesALineActive : Prop :=
  ∀ (s : State) (l : Nat),
    (l < 256 → encode (.startup l) = (BitVec.ofNat 32 (0x80000000 + l), 0))
    ∧ (64 ≤ l → exec (.startup l) s = .next (s.raise .irqRange))
    ∧ ∀ (L : Line) (o : CpuId), L.val = l →
        (cfgPin s.cfg L = some o ∨ (cfgPin s.cfg L = none ∧ o = 0)) →
        (s.owner[L] ≠ none → exec (.startup l) s
            = .next (s.answered { s with hist := s.hist ++ [.violation L] } .startup (.startup .busy)))
        ∧ (s.owner[L] = none → ∃ (st m : Word) (br : List Bridge) (q : List Posted),
            exec (.startup l) s = .next (s.answered
              { s with
                owner := s.owner.set L (some o)
                status := st
                mask := s.mask.set o m
                bridges := br
                bq := q } .startup (.startup .ok))
            ∧ (∀ i : Line, st.getLsbD i.val = (s.status.getLsbD i.val && decide (i ≠ L)))
            ∧ (∀ i : Line, m.getLsbD i.val = (s.mask[o].getLsbD i.val || decide (i = L)))
            ∧ (s.bind[L] = none → br = s.bridges ∧ q = s.bq)
            ∧ (∀ b, s.bind[L] = some b → q = []
                ∧ br = (s.bq ++ ([⟨b.bridge, b.slot, .enSet⟩, ⟨b.bridge, b.slot, .modeSet⟩,
                    ⟨b.bridge, b.slot, .route (cfgRouteVal s.cfg b.bridge b.slot L)⟩] : List Posted)).foldl
                      performPosted s.bridges))

/-- SHUTDOWN clears the line's bit in its owner's mask register only, posts the slot-enable clear of a
bound line without a flush, and clears the owner; S and the other mask registers keep their bits (R142). -/
def Obligations.ShutdownMakesALineIdle : Prop :=
  ∀ (s : State) (l : Nat),
    (l < 256 → encode (.shutdown l) = (BitVec.ofNat 32 (0x88000000 + l), 0))
    ∧ (64 ≤ l → exec (.shutdown l) s = .next (s.raise .irqRange))
    ∧ ∀ L : Line, L.val = l → ∃ (mk : Vector Word 8) (q : List Posted),
        exec (.shutdown l) s = .next (s.answered
          { s with owner := s.owner.set L none, mask := mk, bq := q } .shutdown .unit)
        ∧ (∀ (k : CpuId) (i : Line), mk[k].getLsbD i.val
            = (s.mask[k].getLsbD i.val && !(decide (i = L) && decide (s.owner[L] = some k))))
        ∧ (s.bind[L] = none → q = s.bq)
        ∧ (∀ b, s.bind[L] = some b → q = s.bq ++ [⟨b.bridge, b.slot, .enClear⟩])

/-- ACK clears the line's pending bit and changes nothing else, on Idle and Active lines alike (R144). -/
def Obligations.AckClearsOnlyItsPendingBit : Prop :=
  ∀ (s : State) (l : Nat),
    (l < 256 → encode (.ack l) = (BitVec.ofNat 32 (0x90000000 + l), 0))
    ∧ (64 ≤ l → exec (.ack l) s = .next (s.raise .irqRange))
    ∧ ∀ L : Line, L.val = l → ∃ st, exec (.ack l) s = .next (s.answered { s with status := st } .ack .unit)
        ∧ ∀ i : Line, st.getLsbD i.val = (s.status.getLsbD i.val && decide (i ≠ L))

/-- MASK clears and UNMASK sets the line's bit in its owner's mask register, in no other mask register
and for no other line; both are no-ops on an Idle line, and neither touches S or OWNER; `disable` and
`enable` expand to them (R146, R148). -/
def Obligations.MaskAndUnmaskReachOnlyTheOwner : Prop :=
  ∀ (s : State) (l : Nat),
    (Pseudo.disable l).expand = .mask l ∧ (Pseudo.enable l).expand = .unmask l
    ∧ (l < 256 → encode (.mask l) = (BitVec.ofNat 32 (0x98000000 + l), 0)
        ∧ encode (.unmask l) = (BitVec.ofNat 32 (0xA0000000 + l), 0))
    ∧ (64 ≤ l → exec (.mask l) s = .next (s.raise .irqRange) ∧ exec (.unmask l) s = .next (s.raise .irqRange))
    ∧ ∀ L : Line, L.val = l →
        (∃ mk, exec (.mask l) s = .next (s.answered { s with mask := mk } .mask .unit)
          ∧ ∀ (k : CpuId) (i : Line), mk[k].getLsbD i.val
              = (s.mask[k].getLsbD i.val && !(decide (i = L) && decide (s.owner[L] = some k))))
        ∧ (∃ mk, exec (.unmask l) s = .next (s.answered { s with mask := mk } .unmask .unit)
          ∧ ∀ (k : CpuId) (i : Line), mk[k].getLsbD i.val
              = (s.mask[k].getLsbD i.val || (decide (i = L) && decide (s.owner[L] = some k))))

/-- MASK_ACK masks the line in its owner's mask register and always clears its pending bit (R150). -/
def Obligations.MaskAckMasksAndAcknowledges : Prop :=
  ∀ (s : State) (l : Nat),
    (l < 256 → encode (.maskAck l) = (BitVec.ofNat 32 (0xA8000000 + l), 0))
    ∧ (64 ≤ l → exec (.maskAck l) s = .next (s.raise .irqRange))
    ∧ ∀ L : Line, L.val = l → ∃ mk st,
        exec (.maskAck l) s = .next (s.answered { s with mask := mk, status := st } .maskAck .unit)
        ∧ (∀ (k : CpuId) (i : Line), mk[k].getLsbD i.val
            = (s.mask[k].getLsbD i.val && !(decide (i = L) && decide (s.owner[L] = some k))))
        ∧ ∀ i : Line, st.getLsbD i.val = (s.status.getLsbD i.val && decide (i ≠ L))

/-- CTRL_INIT clears every mask register and every owner; CPU_RESET clears one mask register; nothing
else changes (R154, R155). -/
def Obligations.InitAndCpuResetClearMasks : Prop :=
  ∀ (s : State) (c : CpuId),
    encode .ctrlInit = (0xC0000000, 0)
    ∧ encode (.cpuReset c) = (BitVec.ofNat 32 (0xC8000000 + 0x1000000 * c.val), 0)
    ∧ (∃ mk ow, exec .ctrlInit s = .next (s.answered { s with mask := mk, owner := ow } .ctrlInit .unit)
        ∧ (∀ k : CpuId, k.val < s.cfg.ncpu → mk[k] = 0)
        ∧ (∀ k : CpuId, s.cfg.ncpu ≤ k.val → mk[k] = s.mask[k])
        ∧ ∀ l : Line, ow[l] = none)
    ∧ (s.cfg.ncpu ≤ c.val → exec (.cpuReset c) s = .next (s.raise .cpuRange))
    ∧ (c.val < s.cfg.ncpu →
        exec (.cpuReset c) s = .next (s.answered { s with mask := s.mask.set c 0 } .cpuReset .unit))

/-! ### The dispatch front-end -/

/-- IRQ_ENTRY enters the highest-priority band whose summary bit is set; with no bit set it ends at once
as spurious; during an entry it raises NESTED_ENTRY (R170, R171, R26). That the index advances only for an
entry listed in the program is the model's choice (assumption 12). -/
def Obligations.EntryTakesTheHighestBand : Prop :=
  ∀ s : State,
    encode .irqEntry = (0xD0000000, 0)
    ∧ (s.disp[s.self] ≠ .idle → exec .irqEntry s = .next (s.raise .nestedEntry))
    ∧ (s.disp[s.self] = .idle →
        (∀ b : Band, BandRaised s s.self s.draw b →
          (∀ b' : Band, BandRaised s s.self s.draw b' → b.priority ≤ b'.priority) →
          exec .irqEntry s = .next
            { s with
              disp := s.disp.set s.self (.band b)
              hist := s.hist ++ [.entry s.self b]
              entryListed := s.entryListed.set s.self s.listed })
        ∧ ((∀ b : Band, ¬ BandRaised s s.self s.draw b) →
          exec .irqEntry s = .next
            { s with
              disp := s.disp.set s.self .idle
              hist := s.hist ++ [.spurious s.self, .resp s.self .irqEntry .unit]
              index := if s.listed then s.index.set s.self (s.index[s.self] + 1) else s.index }))

/-- The two counter bands dispatch their fixed IRQ number and end the entry; no HEART register changes
(R173, R176). -/
def Obligations.CounterBandsDispatchAFixedIrq : Prop :=
  ∀ (s : State) (c : CpuId) (x : Draw) (rest : List Scheduled), s.CpuTakes c x rest →
    (s.disp[c] = .band .cpucnt → step s = .next (State.entryEnded c
      { s.issued c x true rest with hist := s.hist ++ [.dispatchFixed c s.cfg.cpuTimerIrq] }))
    ∧ (s.disp[c] = .band .hcnt → step s = .next (State.entryEnded c
      { s.issued c x true rest with hist := s.hist ++ [.dispatchFixed c s.cfg.heartCounterIrq] }))

/-- The error band reads S and CAUSE in one step; in the next it clears bits 51..63 of S, reports the
error bits of the value read, highest first, with the raw cause, and ends the entry (R174, R175). -/
def Obligations.ErrorBandReportsAndAcknowledges : Prop :=
  ∀ (s : State) (c : CpuId) (x : Draw) (rest : List Scheduled), s.CpuTakes c x rest →
    (s.disp[c] = .band .err →
      step s = .next { s.issued c x true rest with disp := s.disp.set c (.errAck s.status s.cause) })
    ∧ (∀ sv cv : Word, s.disp[c] = .errAck sv cv → ∃ (st : Word) (bits : List Line),
      step s = .next (State.entryEnded c
        { s.issued c x true rest with status := st, hist := s.hist ++ [.errReport c bits cv] })
      ∧ (∀ i : Line, st.getLsbD i.val = (s.status.getLsbD i.val && decide (i.val < 51)))
      ∧ (∀ i : Line, i ∈ bits ↔ (51 ≤ i.val ∧ sv.getLsbD i.val = true))
      ∧ bits.Pairwise (fun a b => b.val < a.val))

/-- A generic band reads S or M[c] first, as the step chooses; the second step reads the other and takes
the snapshot; an empty snapshot ends the entry as spurious (R177, R178). -/
def Obligations.GenericBandTakesOneSnapshot : Prop :=
  ∀ (s : State) (c : CpuId) (x : Draw) (rest : List Scheduled), s.CpuTakes c x rest →
    (s.disp[c] = .band .genHi ∨ s.disp[c] = .band .genLo →
      (x.first = .status → step s = .next
        { s.issued c x true rest with disp := s.disp.set c (.genHalf .status s.status) })
      ∧ (x.first = .mask → step s = .next
        { s.issued c x true rest with disp := s.disp.set c (.genHalf .mask s.mask[c]) }))
    ∧ (∀ (first : SnapFirst) (v snap : Word), s.disp[c] = .genHalf first v →
      (∀ i : Line, snap.getLsbD i.val = (v.getLsbD i.val && s.cfg.managedMask.getLsbD i.val
        && (if first = .status then s.mask[c].getLsbD i.val else s.status.getLsbD i.val))) →
      (snap = 0 → step s = .next (State.entryEnded c
        { s.issued c x true rest with hist := s.hist ++ [.spurious c] }))
      ∧ (snap ≠ 0 → step s = .next { s.issued c x true rest with disp := s.disp.set c (.scan snap) }))

/-- A scan dispatches the highest-numbered remaining line and takes it off the remainder; with none left
the entry ends (R179). -/
def Obligations.ScanDispatchesTheHighestLine : Prop :=
  ∀ (s : State) (c : CpuId) (x : Draw) (rest : List Scheduled) (rem : Word), s.CpuTakes c x rest →
    s.disp[c] = .scan rem →
    (rem = 0 → step s = .next (State.entryEnded c (s.issued c x true rest)))
    ∧ (∀ L : Line, rem.getLsbD L.val = true → (∀ i : Line, L < i → rem.getLsbD i.val = false) →
      ∃ rem' : Word, (∀ i : Line, rem'.getLsbD i.val = (rem.getLsbD i.val && decide (i ≠ L)))
        ∧ step s = .next { s.issued c x true rest with
            hist := s.hist ++ [.dispatch c L]
            disp := s.disp.set c (.flow rem' L .pre) })

/-- The three steps of a line's flow have the effect of the commands they name, without the response:
MASK_ACK or ACK before, IPI_RECEIVE or the Handle event, UNMASK after (R180, R181, R182). -/
def Obligations.FlowStepsEqualTheirCommands : Prop :=
  ∀ (s : State) (c : CpuId) (x : Draw) (rest : List Scheduled) (rem : Word) (l : Line),
    s.CpuTakes c x rest →
    (s.disp[c] = .flow rem l .pre → ∃ t,
      exec (if cfgFlow s.cfg l = .maskAck then .maskAck l.val else .ack l.val) (s.issued c x true rest) = .next t
      ∧ step s = .next { t with hist := s.hist, index := s.index, disp := s.disp.set c (.flow rem l .handler) })
    ∧ (s.disp[c] = .flow rem l .handler →
      ((∃ c' : CpuId, c'.val < s.cfg.ncpu ∧ cfgIpiLine s.cfg c' = l) → ∃ t h,
        exec .ipiReceive (s.issued c x true rest) = .next t
        ∧ t.hist = h ++ [.resp c .ipiReceive (.word s.mbox[c])]
        ∧ step s = .next { t with hist := h, index := s.index, disp := s.disp.set c (.flow rem l .post) })
      ∧ ((¬ ∃ c' : CpuId, c'.val < s.cfg.ncpu ∧ cfgIpiLine s.cfg c' = l) →
        step s = .next { s.issued c x true rest with
          hist := s.hist ++ [.handle c l], disp := s.disp.set c (.flow rem l .post) }))
    ∧ (s.disp[c] = .flow rem l .post → ∃ t,
      exec (.unmask l.val) (s.issued c x true rest) = .next t
      ∧ step s = .next { t with hist := s.hist, index := s.index, disp := s.disp.set c (.scan rem) })

/-- While CPU c's dispatcher is busy, a step of CPU c raises no fault, leaves its program and its IPI
send alone, and moves its program index only by ending the entry (R172). -/
def Obligations.InterruptContextComesFirst : Prop :=
  ∀ (s : State) (c : CpuId) (x : Draw) (rest : List Scheduled), s.CpuTakes c x rest →
    s.disp[c] ≠ .idle → ∃ t, step s = .next t ∧ t.fault = none ∧ t.prog = s.prog ∧ t.send = s.send
      ∧ (t.disp[c] = .idle ∨ t.index = s.index)

/-- No step of the agents raises NESTED_ENTRY: only an entry that a harness delivers does (R172, R186;
95_test_vectors.md X-13). The delivery is the model's own schedule entry (assumption 14). -/
def Obligations.AgentsNeverNestEntries : Prop :=
  ∀ s t : State, (∀ c x, s.nextScheduled ≠ .deliver c x) → step s = .next t →
    t.fault ≠ some .nestedEntry

/-! ### The IPI mailboxes -/

/-- IPI_SEND ORs the actions into the target's mailbox and leaves the assertion to its second phase; it
does not complete yet, and raises CPU_RANGE for a target that does not exist; `ipi_resched` and `ipi_call`
expand to it (R200). -/
def Obligations.IpiSendPostsToTheMailbox : Prop :=
  ∀ (s : State) (c : CpuId) (d : Word),
    encode (.ipiSend c d) = (BitVec.ofNat 32 (0xE0000000 + 0x1000000 * c.val), d)
    ∧ (Pseudo.ipiResched c).expand = .ipiSend c 0x1 ∧ (Pseudo.ipiCall c).expand = .ipiSend c 0x2
    ∧ (s.cfg.ncpu ≤ c.val → exec (.ipiSend c d) s = .next (s.raise .cpuRange))
    ∧ (c.val < s.cfg.ncpu → ∃ m : Word,
        exec (.ipiSend c d) s = .next
          { s with mbox := s.mbox.set c m, send := s.send.set s.self (.asserting c) }
        ∧ ∀ k : Line, m.getLsbD k.val = (s.mbox[c].getLsbD k.val || d.getLsbD k.val))

/-- The second phase of a send asserts the target's IPI line, and completes the command (R201). -/
def Obligations.IpiSendAssertsTheTargetLine : Prop :=
  ∀ (s : State) (c t : CpuId) (x : Draw) (rest : List Scheduled), s.CpuTakes c x rest →
    s.disp[c] = .idle → s.send[c] = .asserting t → ∃ st : Word,
      step s = .next ((s.issued c x true rest).answered
        { s.issued c x true rest with status := st, send := s.send.set c .idle } .ipiSend .unit)
      ∧ ∀ i : Line, st.getLsbD i.val = (s.status.getLsbD i.val || decide (i = cfgIpiLine s.cfg t))

/-- IPI_RECEIVE reads and zeroes the local mailbox, clears the local IPI line, emits one IpiAction for
each recognised bit in ascending order, and responds the actions drained (R204, R205). -/
def Obligations.IpiReceiveDrainsTheMailbox : Prop :=
  encode .ipiReceive = (0xE8000000, 0)
  ∧ ∀ s : State, s.cfg.callBit ≠ reschedBit → ∃ st : Word,
    exec .ipiReceive s = .next (s.answered
      { s with
        mbox := s.mbox.set s.self 0
        status := st
        hist := s.hist
          ++ (if s.mbox[s.self].getLsbD 0 then [.ipiAction s.self .resched] else [])
          ++ (if s.mbox[s.self].getLsbD s.cfg.callBit.val then [.ipiAction s.self .call] else []) }
      .ipiReceive (.word s.mbox[s.self]))
    ∧ ∀ i : Line, st.getLsbD i.val = (s.status.getLsbD i.val && decide (i ≠ cfgIpiLine s.cfg s.self))

/-- Two sends to an idle target before it drains are observed by one receive as the union of their
actions (R202). -/
def Obligations.SendsCoalesceInTheMailbox : Prop :=
  ∀ (s : State) (c c1 c2 : CpuId) (a1 a2 : Word), c.val < s.cfg.ncpu → s.mbox[c] = 0 →
    ∃ t1 t2 t3, exec (.ipiSend c a1) { s with self := c1 } = .next t1
      ∧ exec (.ipiSend c a2) { t1 with self := c2 } = .next t2
      ∧ exec .ipiReceive { t2 with self := c } = .next t3
      ∧ t3.mbox[c] = 0
      ∧ ∃ h, t3.hist = h ++ [.resp c .ipiReceive (.word (a1 ||| a2))]

/-- No step loses a mailbox action: a step leaves every action bit of a mailbox in it, or zeroes the
mailbox and emits the actions it held (R203). -/
def Obligations.NoMailboxActionIsLost : Prop :=
  ∀ (s t : State) (c : CpuId), step s = .next t →
    (∀ k : Line, s.mbox[c].getLsbD k.val = true → t.mbox[c].getLsbD k.val = true)
    ∨ (t.mbox[c] = 0
      ∧ ∃ tail, t.hist = s.hist ++ (actionsOf s.cfg s.mbox[c]).map (Event.ipiAction c) ++ tail)

/-! ### The other agents and the register space -/

/-- The bridge agent performs the oldest posted write on the slot it names and on nothing else (R66). With no
posted write it has no step: that choosing it then only uses up the schedule entry is the model's choice
(assumption 3). A write that names slot 64 or more, which no reachable state holds, is left out. -/
def Obligations.BridgeAgentPerformsTheOldestWrite : Prop :=
  ∀ (s : State) (rest : List Scheduled), s.Takes .bridge rest →
    (s.bq = [] → step s = .next { s with sched := rest })
    ∧ ∀ (p : Posted) (q : List Posted) (old : Bridge), s.bq = p :: q → s.bridges[p.bridge]? = some old →
      p.slot < 64 → ∃ (br : List Bridge) (new : Bridge),
        step s = .next { s with sched := rest, bq := q, bridges := br }
        ∧ br.length = s.bridges.length
        ∧ (∀ b, b ≠ p.bridge → br[b]? = s.bridges[b]?)
        ∧ br[p.bridge]? = some new
        ∧ (∀ i : Line, new.en.getLsbD i.val
            = if p.write = .enSet then old.en.getLsbD i.val || decide (i.val = p.slot)
              else if p.write = .enClear then old.en.getLsbD i.val && decide (i.val ≠ p.slot)
              else old.en.getLsbD i.val)
        ∧ (∀ i : Line, new.mode.getLsbD i.val
            = if p.write = .modeSet then old.mode.getLsbD i.val || decide (i.val = p.slot)
              else old.mode.getLsbD i.val)
        ∧ (∀ r, p.write = .route r → new.route = old.route.set p.slot r)
        ∧ ((∀ r, p.write ≠ .route r) → new.route = old.route)

/-- A flush leaves what the bridge agent leaves after one step for each posted write (R67). -/
def Obligations.FlushEqualsTheBridgeAgentsSteps : Prop :=
  ∀ (s : State) (rest : List Scheduled), cfgWellFormed s.cfg = true → s.fault = none →
    s.sched = List.replicate s.bq.length (.agent .bridge) ++ rest →
    Host.Core.run Sys2Proof.core s.bq.length s = .next { s.flush with sched := rest }

/-- The device agent sets the status bit of a line of SOURCE_LINES, or ORs bits into CAUSE, and nothing
else (R226). That choosing a line outside SOURCE_LINES, for which R226 gives no step, only uses up the
schedule entry is the model's choice (assumption 3). -/
def Obligations.DeviceAgentAssertsAndRecords : Prop :=
  ∀ (s : State) (rest : List Scheduled),
    (∀ l : Line, s.Takes (.devAssert l) rest →
      (s.cfg.sourceLines.getLsbD l.val = true → ∃ st : Word,
        step s = .next { s with sched := rest, status := st }
        ∧ ∀ i : Line, st.getLsbD i.val = (s.status.getLsbD i.val || decide (i = l)))
      ∧ (s.cfg.sourceLines.getLsbD l.val = false → step s = .next { s with sched := rest }))
    ∧ (∀ v : Word, s.Takes (.devCause v) rest → ∃ cs : Word,
      step s = .next { s with sched := rest, cause := cs }
      ∧ ∀ i : Line, cs.getLsbD i.val = (s.cause.getLsbD i.val || v.getLsbD i.val))

/-- Address-level reads: an aligned 64-bit read of the status, a mask or the cause register returns its
value and changes nothing; every other read raises MMIO_ACCESS (R62, R64). That an accepted access stands in
a program, leaves its value in `readData`, emits no response and advances the program index is the model's
choice (assumption 10); offsets that collide are left out (assumption 11). -/
def Obligations.AddressLevelReads : Prop :=
  ∀ (s : State) (c : CpuId) (x : Draw) (rest : List Scheduled) (addr width : Nat),
    s.Fetches c x rest (.access (.read addr width)) → OffsetsDistinct s.cfg →
    ((¬ (width = 8 ∧ addr % 8 = 0) → step s = .next ((s.issued c x true rest).raise .mmioAccess))
    ∧ (width = 8 → addr % 8 = 0 →
      (∀ v : Word, (addr = s.cfg.heartBase + s.cfg.offStatus ∧ v = s.status
          ∨ addr = s.cfg.heartBase + s.cfg.offCause ∧ v = s.cause
          ∨ ∃ k : CpuId, k.val < s.cfg.ncpu ∧ some (addr - s.cfg.heartBase) = s.cfg.offMask[k.val]?
              ∧ s.cfg.heartBase ≤ addr ∧ v = s.mask[k]) →
        step s = .next { s.issued c x true rest with
          readData := s.readData.set c v, index := s.index.set c (s.index[c] + 1) })
      ∧ (addr ≠ s.cfg.heartBase + s.cfg.offStatus → addr ≠ s.cfg.heartBase + s.cfg.offCause →
        (∀ k : CpuId, k.val < s.cfg.ncpu → s.cfg.heartBase ≤ addr →
          some (addr - s.cfg.heartBase) ≠ s.cfg.offMask[k.val]?) →
        step s = .next ((s.issued c x true rest).raise .mmioAccess))))

/-- Address-level writes: an aligned 64-bit write of SET, CLEAR or a mask register has the effect of
WR_SET, WR_CLEAR or WR_MASK; every other write raises MMIO_ACCESS (R62, R64). That an accepted access stands
in a program, emits no response (as A-14 shows) and advances the program index is the model's choice
(assumption 10); offsets that collide are left out (assumption 11). -/
def Obligations.AddressLevelWrites : Prop :=
  ∀ (s : State) (c : CpuId) (x : Draw) (rest : List Scheduled) (addr width : Nat) (v : Word),
    s.Fetches c x rest (.access (.write addr width v)) → OffsetsDistinct s.cfg →
    ((¬ (width = 8 ∧ addr % 8 = 0) → step s = .next ((s.issued c x true rest).raise .mmioAccess))
    ∧ (width = 8 → addr % 8 = 0 →
      (∀ i : Instr, (addr = s.cfg.heartBase + s.cfg.offSet ∧ i = .wrSet v
          ∨ addr = s.cfg.heartBase + s.cfg.offClear ∧ i = .wrClear v
          ∨ ∃ k : CpuId, k.val < s.cfg.ncpu ∧ some (addr - s.cfg.heartBase) = s.cfg.offMask[k.val]?
              ∧ s.cfg.heartBase ≤ addr ∧ i = .wrMask k v) →
        ∃ t, exec i (s.issued c x true rest) = .next t ∧ step s = .next { t with hist := s.hist })
      ∧ (addr ≠ s.cfg.heartBase + s.cfg.offSet → addr ≠ s.cfg.heartBase + s.cfg.offClear →
        (∀ k : CpuId, k.val < s.cfg.ncpu → s.cfg.heartBase ≤ addr →
          some (addr - s.cfg.heartBase) ≠ s.cfg.offMask[k.val]?) →
        step s = .next ((s.issued c x true rest).raise .mmioAccess))))

/-! ### Encoding -/

/-- Decoding follows the printed table: an operation code in no row is ILLEGAL_OPCODE; in a row, a word
off the row's match under its mask, or a non-zero data operand of a command without data, is
RESERVED_FIELD; every other pair is that row's command (R82, R83, R84, R85). -/
def Obligations.DecodeFollowsTheOpcodeMap : Prop :=
  (∀ n : Nat, n < 32 → (n ∈ [0x00, 0x07, 0x0B, 0x0E, 0x0F, 0x16, 0x17, 0x1B, 0x1E, 0x1F]
      ↔ ∀ r ∈ printedMap, r.matchW.toNat / 0x8000000 ≠ n))
  ∧ ∀ (w : BitVec 32) (d : Word),
    ((∀ r ∈ printedMap, r.matchW.toNat / 0x8000000 ≠ w.toNat / 0x8000000) → decode w d = .error .illegalOpcode)
    ∧ ∀ r ∈ printedMap, r.matchW.toNat / 0x8000000 = w.toNat / 0x8000000 →
      (w &&& r.maskW = r.matchW ∧ (r.data = true ∨ d = 0) → ∃ i, decode w d = .ok i ∧ i.op = r.op)
      ∧ (¬ (w &&& r.maskW = r.matchW ∧ (r.data = true ∨ d = 0)) → decode w d = .error .reservedField)

/-- Decoding the encoding of any well-formed command gives the command back, for every value of every
operand. -/
def Obligations.DecodeInvertsEncode : Prop :=
  ∀ i : Instr, i.wellFormed = true → decode (encode i).1 (encode i).2 = .ok i

/-- A pair that decodes is the encoding of the command it decodes to, which is well formed: each command
has one encoding. -/
def Obligations.EncodeInvertsDecode : Prop :=
  ∀ (w : BitVec 32) (d : Word) (i : Instr), decode w d = .ok i → i.wellFormed = true ∧ encode i = (w, d)

/-- The worked encodings (R86): each line's text assembles to its command, that command's encoding is
the word and the data, and the word and the data decode to it. -/
def Obligations.WorkedEncodingsDecode : Prop :=
  ∀ e ∈ ([("startup 42", .startup 42, 0x8000002A, 0), ("ack 5", .ack 5, 0x90000005, 0),
      ("mask_ack 63", .maskAck 63, 0xA800003F, 0), ("assign 42, 1", .assign 42 1, 0x4100002A, 0)]
    ++ [("bind 20, 0, 3", .bind 20 0 3, 0x60000314, 0),
      ("wr_mask 1, #0x0000_0400_0000_0000", .wrMask 1 0x0000040000000000, 0x29000000, 0x0000040000000000),
      ("ipi_send 1, #0x1", .ipiSend 1 0x1, 0xE1000000, 0x0000000000000001),
      ("cpu_reset 1", .cpuReset 1, 0xC9000000, 0)] : List (String × Instr × BitVec 32 × Word)),
    assemble e.1.toList = some e.2.1 ∧ encode e.2.1 = e.2.2 ∧ decode e.2.2.1 e.2.2.2 = .ok e.2.1

/-! ### Laws of the controller -/

/-- MASK_ACK equals MASK then ACK, apart from HIST and the number of commands completed (R151). -/
def Obligations.MaskAckEqualsMaskThenAck : Prop :=
  ∀ (s : State) (l : Line), ∃ t1 t2 t3, exec (.maskAck l.val) s = .next t1
    ∧ exec (.mask l.val) s = .next t2 ∧ exec (.ack l.val) t2 = .next t3
    ∧ { t3 with hist := t1.hist, index := t1.index } = t1

/-- A second ACK in a row, and a second STARTUP without a SHUTDOWN between them, change nothing apart from
HIST and the number of commands completed; the second STARTUP responds BUSY (R145, R158). -/
def Obligations.SecondAckAndSecondStartupChangeNothing : Prop :=
  ∀ (s : State) (l : Line),
    (∃ t1 t2, exec (.ack l.val) s = .next t1 ∧ exec (.ack l.val) t1 = .next t2
      ∧ { t2 with hist := t1.hist, index := t1.index } = t1)
    ∧ (∃ t1 t2, exec (.startup l.val) s = .next t1 ∧ exec (.startup l.val) t1 = .next t2
      ∧ { t2 with hist := t1.hist, index := t1.index } = t1
      ∧ t2.hist = t1.hist ++ [.violation l, .resp t1.self .startup (.startup .busy)])

/-- A STARTUP that responds OK, followed by a SHUTDOWN, leaves the line unowned and its bit clear in the
mask register STARTUP set it in; the other bits of every mask register are as before (R157). -/
def Obligations.StartupThenShutdownRestoresIdle : Prop :=
  ∀ (s : State) (l : Line), s.owner[l] = none → ∃ t1 t2,
    exec (.startup l.val) s = .next t1 ∧ exec (.shutdown l.val) t1 = .next t2
    ∧ t2.owner[l] = none
    ∧ t2.mask[ownerChoice s.cfg l].getLsbD l.val = false
    ∧ ∀ (k : CpuId) (i : Line), (k ≠ ownerChoice s.cfg l ∨ i ≠ l) →
        t2.mask[k].getLsbD i.val = s.mask[k].getLsbD i.val

/-- For a line bound to a bridge slot that exists: after a STARTUP that responds OK the owner's mask bit,
the slot's enable and mode bits are set and its routing value is written; after a SHUTDOWN the mask bit is
clear at once, and the enable bit once every posted write is performed (R159). -/
def Obligations.BridgeBoundLineFollowsItsSlot : Prop :=
  ∀ (s : State) (l : Line) (b : BridgeSlot), s.Inv → s.owner[l] = none → s.bind[l] = some b →
    ∃ t1 t2 br1 br2, exec (.startup l.val) s = .next t1 ∧ exec (.shutdown l.val) t1 = .next t2
      ∧ t1.mask[ownerChoice s.cfg l].getLsbD l.val = true
      ∧ t1.bridges[b.bridge]? = some br1
      ∧ br1.en.getLsbD b.slot = true ∧ br1.mode.getLsbD b.slot = true
      ∧ br1.route[b.slot]? = some (cfgRouteVal s.cfg b.bridge b.slot l)
      ∧ t2.mask[ownerChoice s.cfg l].getLsbD l.val = false
      ∧ t2.flush.bridges[b.bridge]? = some br2 ∧ br2.en.getLsbD b.slot = false

/-- The per-line transitions of R152, as views of OWNER and M. -/
def Obligations.LineViewTransitions : Prop :=
  ∀ (s : State) (l : Line) (c : CpuId),
    (lineView s l = .idle → ∃ t, exec (.startup l.val) s = .next t
        ∧ lineView t l = .enabled (ownerChoice s.cfg l))
    ∧ (lineView s l ≠ .idle → ∃ t, exec (.startup l.val) s = .next t ∧ lineView t l = lineView s l)
    ∧ (∃ t, exec (.shutdown l.val) s = .next t ∧ lineView t l = .idle)
    ∧ (lineView s l = .enabled c ∨ lineView s l = .masked c →
        (∃ t, exec (.mask l.val) s = .next t ∧ lineView t l = .masked c)
        ∧ (∃ t, exec (.unmask l.val) s = .next t ∧ lineView t l = .enabled c)
        ∧ (∃ t, exec (.maskAck l.val) s = .next t ∧ lineView t l = .masked c
            ∧ t.status.getLsbD l.val = false))
    ∧ (lineView s l = .idle →
        (∃ t, exec (.mask l.val) s = .next t ∧ lineView t l = .idle ∧ t.mask = s.mask)
        ∧ (∃ t, exec (.unmask l.val) s = .next t ∧ lineView t l = .idle ∧ t.mask = s.mask)
        ∧ (∃ t, exec (.maskAck l.val) s = .next t ∧ lineView t l = .idle ∧ t.mask = s.mask
            ∧ t.status.getLsbD l.val = false))
    ∧ (∃ t, exec (.ack l.val) s = .next t ∧ lineView t l = lineView s l ∧ t.status.getLsbD l.val = false)

/-- While a line is in service and no longer owned, the flow's Pre and Post steps change no mask register,
and Pre still clears the line's pending bit (R273). -/
def Obligations.ShutdownDuringServiceIsTolerated : Prop :=
  ∀ (s : State) (c : CpuId) (x : Draw) (rest : List Scheduled) (rem : Word) (l : Line),
    s.CpuTakes c x rest → s.owner[l] = none →
    (s.disp[c] = .flow rem l .pre → ∃ t, step s = .next t ∧ t.mask = s.mask ∧ t.owner = s.owner
        ∧ t.status.getLsbD l.val = false ∧ t.disp[c] = .flow rem l .handler)
    ∧ (s.disp[c] = .flow rem l .post → ∃ t, step s = .next t ∧ t.mask = s.mask ∧ t.owner = s.owner
        ∧ t.status = s.status ∧ t.disp[c] = .scan rem)

/-! ### Faults, reset and the step -/

/-- Raising a fault sets the sticky field if it is none and appends its event, and changes nothing else;
in a faulted state the machine has no step (R221). -/
def Obligations.FaultsAreStickyStops : Prop :=
  (∀ (s : State) (code : FaultCode), s.fault = none →
    s.raise code = { s with fault := some code, hist := s.hist ++ [.fault s.self code] })
  ∧ (∀ (s : State) (code code' : FaultCode), s.fault = some code' →
    s.raise code = { s with hist := s.hist ++ [.fault s.self code] })
  ∧ ∀ (s : State) (code : FaultCode), cfgWellFormed s.cfg = true → s.fault = some code →
    step s = .fault (.stopped code)

/-- The machine refuses to run under a configuration that R7 calls ill formed; CFG0 is well formed (R7).
That an `IPI_LINE` value is below 64 holds by its type. -/
def Obligations.IllFormedConfigurationsAreRefused : Prop :=
  cfgWellFormed cfg0 = true
  ∧ ∀ s : State,
    ((∃ p ∈ s.cfg.pin, s.cfg.ncpu ≤ p.2.val) ∨ ¬ s.cfg.ipiLines.Nodup
      ∨ (∃ l : Line, (errMask.getLsbD l.val && s.cfg.hcntMask.getLsbD l.val
          || errMask.getLsbD l.val && s.cfg.genHiMask.getLsbD l.val
          || errMask.getLsbD l.val && s.cfg.genLoMask.getLsbD l.val
          || s.cfg.hcntMask.getLsbD l.val && s.cfg.genHiMask.getLsbD l.val
          || s.cfg.hcntMask.getLsbD l.val && s.cfg.genLoMask.getLsbD l.val
          || s.cfg.genHiMask.getLsbD l.val && s.cfg.genLoMask.getLsbD l.val) = true)
      ∨ s.cfg.callBit = reschedBit ∨ s.cfg.cpuTimerIrq < 64) →
    step s = .refused .illFormedConfig

/-- A CPU whose next item is a command runs it: a decode fault is raised, and a command that decodes is
executed, with that CPU as `self` (R37, R82). An entry that a CPU takes between two commands runs IRQ_ENTRY
where its dispatcher is Idle (R186); that choosing it elsewhere only uses up the schedule entry is the model's
choice (assumption 3). An entry that a harness delivers runs IRQ_ENTRY whatever the dispatcher is doing, which
is the model's choice too (assumption 14). In both the command is not listed in the program (assumption 12). -/
def Obligations.StepRunsTheDecodedCommand : Prop :=
  (∀ (s : State) (c : CpuId) (x : Draw) (rest : List Scheduled) (w : BitVec 32) (d : Word),
    s.Fetches c x rest (.command w d) →
    (∀ i, decode w d = .ok i → step s = exec i (s.issued c x true rest))
    ∧ (∀ code, decode w d = .error code → step s = .next ((s.issued c x true rest).raise code)))
  ∧ (∀ (s : State) (c : CpuId) (x : Draw) (rest : List Scheduled),
    s.Takes (.entry c x) rest → c.val < s.cfg.ncpu →
    (s.disp[c] = .idle → step s = exec .irqEntry (s.issued c x false rest))
    ∧ (s.disp[c] ≠ .idle → step s = .next { s with sched := rest }))
  ∧ (∀ (s : State) (c : CpuId) (x : Draw) (rest : List Scheduled),
    cfgWellFormed s.cfg = true → s.fault = none → s.sched = .deliver c x :: rest → c.val < s.cfg.ncpu →
    step s = exec .irqEntry (s.issued c x false rest))

/-- The invariant is kept by every step: owners, bindings, posted writes and send targets exist; the
bridges keep their shape; CPUs that do not exist hold nothing; a scan only descends; FAULT is set exactly
when its event is recorded; the configuration stays well formed. -/
def Obligations.EveryStepKeepsTheInvariant : Prop :=
  ∀ s t : State, s.Inv → step s = .next t → t.Inv

/-- The state at power-on satisfies the invariant. -/
def Obligations.ResetSatisfiesTheInvariant : Prop := State.reset.Inv

/-- The power-on values that the spec gives (10_state.md R40): no owners, no bindings, empty mailboxes and
queue, idle dispatchers and sends, no fault, no history, program indexes zero. -/
def Obligations.ResetHoldsTheGivenValues : Prop :=
  (∀ l : Line, State.reset.owner[l] = none ∧ State.reset.bind[l] = none)
  ∧ (∀ c : CpuId, State.reset.mbox[c] = 0 ∧ State.reset.disp[c] = .idle ∧ State.reset.send[c] = .idle
      ∧ State.reset.index[c] = 0)
  ∧ State.reset.bq = [] ∧ State.reset.fault = none ∧ State.reset.hist = []

/-! ### Whole-machine rules -/

/-- Every step and every command only appends to HIST, and a command keeps the code of a FAULT already set
(R34). Every step keeps the programs (R37) and, as the model's choice (assumption 1), the configuration. -/
def Obligations.HistoryIsAppendOnly : Prop :=
  (∀ s t : State, step s = .next t → s.hist <+: t.hist ∧ t.prog = s.prog ∧ t.cfg = s.cfg)
  ∧ ∀ (i : Instr) (s t : State), exec i s = .next t →
    s.hist <+: t.hist ∧ ∀ code, s.fault = some code → t.fault = some code

/-- Only the device agent changes CAUSE, and it only sets bits of it (R25). -/
def Obligations.OnlyTheDeviceAgentChangesCause : Prop :=
  ∀ s t : State, step s = .next t →
    ((∀ v, s.nextScheduled ≠ .agent (.devCause v)) → t.cause = s.cause)
    ∧ ∀ i : Line, s.cause.getLsbD i.val = true → t.cause.getLsbD i.val = true

/-- No step changes or clears a binding that is recorded (R127, R28). -/
def Obligations.BindingsAreNeverRemoved : Prop :=
  ∀ (s t : State) (l : Line) (b : BridgeSlot), step s = .next t → s.bind[l] = some b → t.bind[l] = some b

/-- A step of any agent that changes an owner is a CPU executing STARTUP, ASSIGN, SHUTDOWN, RELEASE or
CTRL_INIT from its program; no other command changes an owner. STARTUP and ASSIGN never change one that is
recorded, and the other three only clear owners (R27, R124). -/
def Obligations.OwnersChangeOnlyByTheirCommands : Prop :=
  (∀ (s t : State) (l : Line), step s = .next t → t.owner[l] ≠ s.owner[l] →
    ∃ c x i, s.Runs c x i ∧ i.op ∈ [Op.startup, .assign, .shutdown, .release, .ctrlInit])
  ∧ ∀ (i : Instr) (s t : State), exec i s = .next t →
    (i.op ∉ [Op.startup, .assign, .shutdown, .release, .ctrlInit] → t.owner = s.owner)
    ∧ (∀ (l : Line) (c : CpuId), i.op ∈ [Op.startup, .assign] → s.owner[l] = some c → t.owner[l] = some c)
    ∧ (∀ l : Line, i.op ∈ [Op.shutdown, .release, .ctrlInit] → t.owner[l] = s.owner[l] ∨ t.owner[l] = none)

/-- A step of another agent leaves the dispatcher, the send and the program index of CPU c alone, which
are private to it (R236). -/
def Obligations.PrivateStateBelongsToItsCpu : Prop :=
  ∀ (s t : State) (c : CpuId), step s = .next t →
    (∀ x, s.nextScheduled ≠ .agent (.cpu c x) ∧ s.nextScheduled ≠ .agent (.entry c x)
      ∧ s.nextScheduled ≠ .deliver c x) →
    t.disp[c] = s.disp[c] ∧ t.send[c] = s.send[c] ∧ t.index[c] = s.index[c]

/-- A command changes no mask bit but those it names: STARTUP of an Idle line, the line's bit at the owner it
chooses; SHUTDOWN, MASK, UNMASK and MASK_ACK, the line's bit at its owner; WR_MASK, CTRL_INIT and CPU_RESET,
whole registers of CPUs that exist; every other command, none. Apart from those three, that is at most one bit
of one register (R24, R70). -/
def Obligations.ControllerCommandsChangeOneMaskBit : Prop :=
  (∀ (i : Instr) (s t : State) (k : CpuId) (j : Line), exec i s = .next t → ¬ MayChangeMaskBit s k j i →
    t.mask[k].getLsbD j.val = s.mask[k].getLsbD j.val)
  ∧ ∀ (i : Instr) (s : State) (k k' : CpuId) (j j' : Line), i.op ∉ [Op.wrMask, .ctrlInit, .cpuReset] →
    MayChangeMaskBit s k j i → MayChangeMaskBit s k' j' i → k = k' ∧ j = j'

/-- Snapshot discipline, under any interleaving: once the snapshot is taken, what CPU c has dispatched
followed by what its dispatcher has still to dispatch never changes, whatever agent steps (R183). So an
entry dispatches exactly the lines of its snapshot, each once, highest first, and no later arrival. -/
def Obligations.EveryStepConservesTheDispatchList : Prop :=
  ∀ (s t : State) (c : CpuId), s.disp[c].scanning = true → step s = .next t →
    dispatchesOf c t.hist ++ t.disp[c].toDispatch = dispatchesOf c s.hist ++ s.disp[c].toDispatch

/-- An uninterrupted scan of a snapshot ends: four steps for each line of it and one more, and the entry
has dispatched exactly the lines of the snapshot in descending order and has responded (R183, R184). -/
def Obligations.UninterruptedScanDispatchesItsSnapshot : Prop :=
  ∀ (s : State) (c : CpuId) (x : Draw) (rest : List Scheduled) (snap : Word),
    cfgWellFormed s.cfg = true → s.fault = none → c.val < s.cfg.ncpu → s.disp[c] = .scan snap →
    s.sched = List.replicate (4 * (bitsDesc snap).length + 1) (.agent (.cpu c x)) ++ rest →
    ∃ t, Host.Core.run Sys2Proof.core (4 * (bitsDesc snap).length + 1) s = .next t
      ∧ t.disp[c] = .idle ∧ t.fault = none ∧ t.sched = rest
      ∧ dispatchesOf c t.hist = dispatchesOf c s.hist ++ bitsDesc snap
      ∧ (∃ h, t.hist = h ++ [.resp c .irqEntry .unit])

/-! ### Posted bridge disable -/

/-- SHUTDOWN of a bound line clears the line's mask bit at once and posts the slot-enable clear, while the
bridges stay as they are; the STARTUP of any Idle bound line afterwards, the same line or another, leaves BQ
empty with the clear performed: the slot's enable bit is clear, unless the started line is bound to that very
slot, whose enable bit is set again (R270). That R270's STARTUP "of any line" is one of a bound line, which
R140 has flush, is the model's inference (assumption 25). -/
def Obligations.PostedDisableIsPerformedByALaterStartup : Prop :=
  ∀ (s : State) (l : Line) (b : BridgeSlot), s.Inv → s.bind[l] = some b →
    ∃ t, exec (.shutdown l.val) s = .next t
      ∧ t.bridges = s.bridges ∧ t.bq = s.bq ++ [⟨b.bridge, b.slot, .enClear⟩]
      ∧ (∀ k : CpuId, s.owner[l] = some k → t.mask[k].getLsbD l.val = false)
      ∧ ∀ (m : Line) (b' : BridgeSlot), t.owner[m] = none → t.bind[m] = some b' →
        ∃ u br, exec (.startup m.val) t = .next u ∧ u.bq = [] ∧ u.bridges[b.bridge]? = some br
          ∧ br.en.getLsbD b.slot = decide (b' = b)
end

