-- ==== Sys2Proof/Laws/State.lean ====
section
/-! SUPPORT. For each named update of the state, what each field holds after it, one lemma a field. -/

namespace Sys2Proof.Machine

/-- Reading a table after a write to one of its slots. -/
@[simp] theorem getElem_set_slot {α : Type} {n : Nat} (t : Vector α n) (i j : Fin n) (x : α) :
    (t.set i.val x i.isLt)[j.val] = if i = j then x else t[j.val] := by
  simp [Vector.getElem_set, Fin.ext_iff]

section
variable (s : State)

@[simp] theorem State.setMask_cfg (k : CpuId) (v : Word) : (s.setMask k v).cfg = s.cfg := rfl
@[simp] theorem State.setMask_status (k : CpuId) (v : Word) : (s.setMask k v).status = s.status := rfl
@[simp] theorem State.setMask_mask (k : CpuId) (v : Word) : (s.setMask k v).mask = s.mask.set k v := rfl
@[simp] theorem State.setMask_cause (k : CpuId) (v : Word) : (s.setMask k v).cause = s.cause := rfl
@[simp] theorem State.setMask_owner (k : CpuId) (v : Word) : (s.setMask k v).owner = s.owner := rfl
@[simp] theorem State.setMask_bind (k : CpuId) (v : Word) : (s.setMask k v).bind = s.bind := rfl
@[simp] theorem State.setMask_bridges (k : CpuId) (v : Word) : (s.setMask k v).bridges = s.bridges := rfl
@[simp] theorem State.setMask_bq (k : CpuId) (v : Word) : (s.setMask k v).bq = s.bq := rfl
@[simp] theorem State.setMask_mbox (k : CpuId) (v : Word) : (s.setMask k v).mbox = s.mbox := rfl
@[simp] theorem State.setMask_disp (k : CpuId) (v : Word) : (s.setMask k v).disp = s.disp := rfl
@[simp] theorem State.setMask_send (k : CpuId) (v : Word) : (s.setMask k v).send = s.send := rfl
@[simp] theorem State.setMask_fault (k : CpuId) (v : Word) : (s.setMask k v).fault = s.fault := rfl
@[simp] theorem State.setMask_hist (k : CpuId) (v : Word) : (s.setMask k v).hist = s.hist := rfl
@[simp] theorem State.setMask_prog (k : CpuId) (v : Word) : (s.setMask k v).prog = s.prog := rfl
@[simp] theorem State.setMask_index (k : CpuId) (v : Word) : (s.setMask k v).index = s.index := rfl
@[simp] theorem State.setMask_self (k : CpuId) (v : Word) : (s.setMask k v).self = s.self := rfl
@[simp] theorem State.setMask_draw (k : CpuId) (v : Word) : (s.setMask k v).draw = s.draw := rfl
@[simp] theorem State.setMask_listed (k : CpuId) (v : Word) : (s.setMask k v).listed = s.listed := rfl
@[simp] theorem State.setMask_entryListed (k : CpuId) (v : Word) : (s.setMask k v).entryListed = s.entryListed := rfl
@[simp] theorem State.setMask_readData (k : CpuId) (v : Word) : (s.setMask k v).readData = s.readData := rfl
@[simp] theorem State.setMask_sched (k : CpuId) (v : Word) : (s.setMask k v).sched = s.sched := rfl
@[simp] theorem State.setMask_tick (k : CpuId) (v : Word) : (s.setMask k v).tick = s.tick := rfl

@[simp] theorem State.setOwner_cfg (l : Line) (o : Option CpuId) : (s.setOwner l o).cfg = s.cfg := rfl
@[simp] theorem State.setOwner_status (l : Line) (o : Option CpuId) : (s.setOwner l o).status = s.status := rfl
@[simp] theorem State.setOwner_mask (l : Line) (o : Option CpuId) : (s.setOwner l o).mask = s.mask := rfl
@[simp] theorem State.setOwner_cause (l : Line) (o : Option CpuId) : (s.setOwner l o).cause = s.cause := rfl
@[simp] theorem State.setOwner_owner (l : Line) (o : Option CpuId) : (s.setOwner l o).owner = s.owner.set l o := rfl
@[simp] theorem State.setOwner_bind (l : Line) (o : Option CpuId) : (s.setOwner l o).bind = s.bind := rfl
@[simp] theorem State.setOwner_bridges (l : Line) (o : Option CpuId) : (s.setOwner l o).bridges = s.bridges := rfl
@[simp] theorem State.setOwner_bq (l : Line) (o : Option CpuId) : (s.setOwner l o).bq = s.bq := rfl
@[simp] theorem State.setOwner_mbox (l : Line) (o : Option CpuId) : (s.setOwner l o).mbox = s.mbox := rfl
@[simp] theorem State.setOwner_disp (l : Line) (o : Option CpuId) : (s.setOwner l o).disp = s.disp := rfl
@[simp] theorem State.setOwner_send (l : Line) (o : Option CpuId) : (s.setOwner l o).send = s.send := rfl
@[simp] theorem State.setOwner_fault (l : Line) (o : Option CpuId) : (s.setOwner l o).fault = s.fault := rfl
@[simp] theorem State.setOwner_hist (l : Line) (o : Option CpuId) : (s.setOwner l o).hist = s.hist := rfl
@[simp] theorem State.setOwner_prog (l : Line) (o : Option CpuId) : (s.setOwner l o).prog = s.prog := rfl
@[simp] theorem State.setOwner_index (l : Line) (o : Option CpuId) : (s.setOwner l o).index = s.index := rfl
@[simp] theorem State.setOwner_self (l : Line) (o : Option CpuId) : (s.setOwner l o).self = s.self := rfl
@[simp] theorem State.setOwner_draw (l : Line) (o : Option CpuId) : (s.setOwner l o).draw = s.draw := rfl
@[simp] theorem State.setOwner_listed (l : Line) (o : Option CpuId) : (s.setOwner l o).listed = s.listed := rfl
@[simp] theorem State.setOwner_entryListed (l : Line) (o : Option CpuId) : (s.setOwner l o).entryListed = s.entryListed := rfl
@[simp] theorem State.setOwner_readData (l : Line) (o : Option CpuId) : (s.setOwner l o).readData = s.readData := rfl
@[simp] theorem State.setOwner_sched (l : Line) (o : Option CpuId) : (s.setOwner l o).sched = s.sched := rfl
@[simp] theorem State.setOwner_tick (l : Line) (o : Option CpuId) : (s.setOwner l o).tick = s.tick := rfl

@[simp] theorem State.setBind_cfg (l : Line) (b : Option BridgeSlot) : (s.setBind l b).cfg = s.cfg := rfl
@[simp] theorem State.setBind_status (l : Line) (b : Option BridgeSlot) : (s.setBind l b).status = s.status := rfl
@[simp] theorem State.setBind_mask (l : Line) (b : Option BridgeSlot) : (s.setBind l b).mask = s.mask := rfl
@[simp] theorem State.setBind_cause (l : Line) (b : Option BridgeSlot) : (s.setBind l b).cause = s.cause := rfl
@[simp] theorem State.setBind_owner (l : Line) (b : Option BridgeSlot) : (s.setBind l b).owner = s.owner := rfl
@[simp] theorem State.setBind_bind (l : Line) (b : Option BridgeSlot) : (s.setBind l b).bind = s.bind.set l b := rfl
@[simp] theorem State.setBind_bridges (l : Line) (b : Option BridgeSlot) : (s.setBind l b).bridges = s.bridges := rfl
@[simp] theorem State.setBind_bq (l : Line) (b : Option BridgeSlot) : (s.setBind l b).bq = s.bq := rfl
@[simp] theorem State.setBind_mbox (l : Line) (b : Option BridgeSlot) : (s.setBind l b).mbox = s.mbox := rfl
@[simp] theorem State.setBind_disp (l : Line) (b : Option BridgeSlot) : (s.setBind l b).disp = s.disp := rfl
@[simp] theorem State.setBind_send (l : Line) (b : Option BridgeSlot) : (s.setBind l b).send = s.send := rfl
@[simp] theorem State.setBind_fault (l : Line) (b : Option BridgeSlot) : (s.setBind l b).fault = s.fault := rfl
@[simp] theorem State.setBind_hist (l : Line) (b : Option BridgeSlot) : (s.setBind l b).hist = s.hist := rfl
@[simp] theorem State.setBind_prog (l : Line) (b : Option BridgeSlot) : (s.setBind l b).prog = s.prog := rfl
@[simp] theorem State.setBind_index (l : Line) (b : Option BridgeSlot) : (s.setBind l b).index = s.index := rfl
@[simp] theorem State.setBind_self (l : Line) (b : Option BridgeSlot) : (s.setBind l b).self = s.self := rfl
@[simp] theorem State.setBind_draw (l : Line) (b : Option BridgeSlot) : (s.setBind l b).draw = s.draw := rfl
@[simp] theorem State.setBind_listed (l : Line) (b : Option BridgeSlot) : (s.setBind l b).listed = s.listed := rfl
@[simp] theorem State.setBind_entryListed (l : Line) (b : Option BridgeSlot) : (s.setBind l b).entryListed = s.entryListed := rfl
@[simp] theorem State.setBind_readData (l : Line) (b : Option BridgeSlot) : (s.setBind l b).readData = s.readData := rfl
@[simp] theorem State.setBind_sched (l : Line) (b : Option BridgeSlot) : (s.setBind l b).sched = s.sched := rfl
@[simp] theorem State.setBind_tick (l : Line) (b : Option BridgeSlot) : (s.setBind l b).tick = s.tick := rfl

@[simp] theorem State.setMbox_cfg (c : CpuId) (v : Word) : (s.setMbox c v).cfg = s.cfg := rfl
@[simp] theorem State.setMbox_status (c : CpuId) (v : Word) : (s.setMbox c v).status = s.status := rfl
@[simp] theorem State.setMbox_mask (c : CpuId) (v : Word) : (s.setMbox c v).mask = s.mask := rfl
@[simp] theorem State.setMbox_cause (c : CpuId) (v : Word) : (s.setMbox c v).cause = s.cause := rfl
@[simp] theorem State.setMbox_owner (c : CpuId) (v : Word) : (s.setMbox c v).owner = s.owner := rfl
@[simp] theorem State.setMbox_bind (c : CpuId) (v : Word) : (s.setMbox c v).bind = s.bind := rfl
@[simp] theorem State.setMbox_bridges (c : CpuId) (v : Word) : (s.setMbox c v).bridges = s.bridges := rfl
@[simp] theorem State.setMbox_bq (c : CpuId) (v : Word) : (s.setMbox c v).bq = s.bq := rfl
@[simp] theorem State.setMbox_mbox (c : CpuId) (v : Word) : (s.setMbox c v).mbox = s.mbox.set c v := rfl
@[simp] theorem State.setMbox_disp (c : CpuId) (v : Word) : (s.setMbox c v).disp = s.disp := rfl
@[simp] theorem State.setMbox_send (c : CpuId) (v : Word) : (s.setMbox c v).send = s.send := rfl
@[simp] theorem State.setMbox_fault (c : CpuId) (v : Word) : (s.setMbox c v).fault = s.fault := rfl
@[simp] theorem State.setMbox_hist (c : CpuId) (v : Word) : (s.setMbox c v).hist = s.hist := rfl
@[simp] theorem State.setMbox_prog (c : CpuId) (v : Word) : (s.setMbox c v).prog = s.prog := rfl
@[simp] theorem State.setMbox_index (c : CpuId) (v : Word) : (s.setMbox c v).index = s.index := rfl
@[simp] theorem State.setMbox_self (c : CpuId) (v : Word) : (s.setMbox c v).self = s.self := rfl
@[simp] theorem State.setMbox_draw (c : CpuId) (v : Word) : (s.setMbox c v).draw = s.draw := rfl
@[simp] theorem State.setMbox_listed (c : CpuId) (v : Word) : (s.setMbox c v).listed = s.listed := rfl
@[simp] theorem State.setMbox_entryListed (c : CpuId) (v : Word) : (s.setMbox c v).entryListed = s.entryListed := rfl
@[simp] theorem State.setMbox_readData (c : CpuId) (v : Word) : (s.setMbox c v).readData = s.readData := rfl
@[simp] theorem State.setMbox_sched (c : CpuId) (v : Word) : (s.setMbox c v).sched = s.sched := rfl
@[simp] theorem State.setMbox_tick (c : CpuId) (v : Word) : (s.setMbox c v).tick = s.tick := rfl

@[simp] theorem State.setDisp_cfg (c : CpuId) (x : Disp) : (s.setDisp c x).cfg = s.cfg := rfl
@[simp] theorem State.setDisp_status (c : CpuId) (x : Disp) : (s.setDisp c x).status = s.status := rfl
@[simp] theorem State.setDisp_mask (c : CpuId) (x : Disp) : (s.setDisp c x).mask = s.mask := rfl
@[simp] theorem State.setDisp_cause (c : CpuId) (x : Disp) : (s.setDisp c x).cause = s.cause := rfl
@[simp] theorem State.setDisp_owner (c : CpuId) (x : Disp) : (s.setDisp c x).owner = s.owner := rfl
@[simp] theorem State.setDisp_bind (c : CpuId) (x : Disp) : (s.setDisp c x).bind = s.bind := rfl
@[simp] theorem State.setDisp_bridges (c : CpuId) (x : Disp) : (s.setDisp c x).bridges = s.bridges := rfl
@[simp] theorem State.setDisp_bq (c : CpuId) (x : Disp) : (s.setDisp c x).bq = s.bq := rfl
@[simp] theorem State.setDisp_mbox (c : CpuId) (x : Disp) : (s.setDisp c x).mbox = s.mbox := rfl
@[simp] theorem State.setDisp_disp (c : CpuId) (x : Disp) : (s.setDisp c x).disp = s.disp.set c x := rfl
@[simp] theorem State.setDisp_send (c : CpuId) (x : Disp) : (s.setDisp c x).send = s.send := rfl
@[simp] theorem State.setDisp_fault (c : CpuId) (x : Disp) : (s.setDisp c x).fault = s.fault := rfl
@[simp] theorem State.setDisp_hist (c : CpuId) (x : Disp) : (s.setDisp c x).hist = s.hist := rfl
@[simp] theorem State.setDisp_prog (c : CpuId) (x : Disp) : (s.setDisp c x).prog = s.prog := rfl
@[simp] theorem State.setDisp_index (c : CpuId) (x : Disp) : (s.setDisp c x).index = s.index := rfl
@[simp] theorem State.setDisp_self (c : CpuId) (x : Disp) : (s.setDisp c x).self = s.self := rfl
@[simp] theorem State.setDisp_draw (c : CpuId) (x : Disp) : (s.setDisp c x).draw = s.draw := rfl
@[simp] theorem State.setDisp_listed (c : CpuId) (x : Disp) : (s.setDisp c x).listed = s.listed := rfl
@[simp] theorem State.setDisp_entryListed (c : CpuId) (x : Disp) : (s.setDisp c x).entryListed = s.entryListed := rfl
@[simp] theorem State.setDisp_readData (c : CpuId) (x : Disp) : (s.setDisp c x).readData = s.readData := rfl
@[simp] theorem State.setDisp_sched (c : CpuId) (x : Disp) : (s.setDisp c x).sched = s.sched := rfl
@[simp] theorem State.setDisp_tick (c : CpuId) (x : Disp) : (s.setDisp c x).tick = s.tick := rfl

@[simp] theorem State.setSend_cfg (c : CpuId) (x : Send) : (s.setSend c x).cfg = s.cfg := rfl
@[simp] theorem State.setSend_status (c : CpuId) (x : Send) : (s.setSend c x).status = s.status := rfl
@[simp] theorem State.setSend_mask (c : CpuId) (x : Send) : (s.setSend c x).mask = s.mask := rfl
@[simp] theorem State.setSend_cause (c : CpuId) (x : Send) : (s.setSend c x).cause = s.cause := rfl
@[simp] theorem State.setSend_owner (c : CpuId) (x : Send) : (s.setSend c x).owner = s.owner := rfl
@[simp] theorem State.setSend_bind (c : CpuId) (x : Send) : (s.setSend c x).bind = s.bind := rfl
@[simp] theorem State.setSend_bridges (c : CpuId) (x : Send) : (s.setSend c x).bridges = s.bridges := rfl
@[simp] theorem State.setSend_bq (c : CpuId) (x : Send) : (s.setSend c x).bq = s.bq := rfl
@[simp] theorem State.setSend_mbox (c : CpuId) (x : Send) : (s.setSend c x).mbox = s.mbox := rfl
@[simp] theorem State.setSend_disp (c : CpuId) (x : Send) : (s.setSend c x).disp = s.disp := rfl
@[simp] theorem State.setSend_send (c : CpuId) (x : Send) : (s.setSend c x).send = s.send.set c x := rfl
@[simp] theorem State.setSend_fault (c : CpuId) (x : Send) : (s.setSend c x).fault = s.fault := rfl
@[simp] theorem State.setSend_hist (c : CpuId) (x : Send) : (s.setSend c x).hist = s.hist := rfl
@[simp] theorem State.setSend_prog (c : CpuId) (x : Send) : (s.setSend c x).prog = s.prog := rfl
@[simp] theorem State.setSend_index (c : CpuId) (x : Send) : (s.setSend c x).index = s.index := rfl
@[simp] theorem State.setSend_self (c : CpuId) (x : Send) : (s.setSend c x).self = s.self := rfl
@[simp] theorem State.setSend_draw (c : CpuId) (x : Send) : (s.setSend c x).draw = s.draw := rfl
@[simp] theorem State.setSend_listed (c : CpuId) (x : Send) : (s.setSend c x).listed = s.listed := rfl
@[simp] theorem State.setSend_entryListed (c : CpuId) (x : Send) : (s.setSend c x).entryListed = s.entryListed := rfl
@[simp] theorem State.setSend_readData (c : CpuId) (x : Send) : (s.setSend c x).readData = s.readData := rfl
@[simp] theorem State.setSend_sched (c : CpuId) (x : Send) : (s.setSend c x).sched = s.sched := rfl
@[simp] theorem State.setSend_tick (c : CpuId) (x : Send) : (s.setSend c x).tick = s.tick := rfl

@[simp] theorem State.setEntryListed_cfg (c : CpuId) (b : Bool) : (s.setEntryListed c b).cfg = s.cfg := rfl
@[simp] theorem State.setEntryListed_status (c : CpuId) (b : Bool) : (s.setEntryListed c b).status = s.status := rfl
@[simp] theorem State.setEntryListed_mask (c : CpuId) (b : Bool) : (s.setEntryListed c b).mask = s.mask := rfl
@[simp] theorem State.setEntryListed_cause (c : CpuId) (b : Bool) : (s.setEntryListed c b).cause = s.cause := rfl
@[simp] theorem State.setEntryListed_owner (c : CpuId) (b : Bool) : (s.setEntryListed c b).owner = s.owner := rfl
@[simp] theorem State.setEntryListed_bind (c : CpuId) (b : Bool) : (s.setEntryListed c b).bind = s.bind := rfl
@[simp] theorem State.setEntryListed_bridges (c : CpuId) (b : Bool) : (s.setEntryListed c b).bridges = s.bridges := rfl
@[simp] theorem State.setEntryListed_bq (c : CpuId) (b : Bool) : (s.setEntryListed c b).bq = s.bq := rfl
@[simp] theorem State.setEntryListed_mbox (c : CpuId) (b : Bool) : (s.setEntryListed c b).mbox = s.mbox := rfl
@[simp] theorem State.setEntryListed_disp (c : CpuId) (b : Bool) : (s.setEntryListed c b).disp = s.disp := rfl
@[simp] theorem State.setEntryListed_send (c : CpuId) (b : Bool) : (s.setEntryListed c b).send = s.send := rfl
@[simp] theorem State.setEntryListed_fault (c : CpuId) (b : Bool) : (s.setEntryListed c b).fault = s.fault := rfl
@[simp] theorem State.setEntryListed_hist (c : CpuId) (b : Bool) : (s.setEntryListed c b).hist = s.hist := rfl
@[simp] theorem State.setEntryListed_prog (c : CpuId) (b : Bool) : (s.setEntryListed c b).prog = s.prog := rfl
@[simp] theorem State.setEntryListed_index (c : CpuId) (b : Bool) : (s.setEntryListed c b).index = s.index := rfl
@[simp] theorem State.setEntryListed_self (c : CpuId) (b : Bool) : (s.setEntryListed c b).self = s.self := rfl
@[simp] theorem State.setEntryListed_draw (c : CpuId) (b : Bool) : (s.setEntryListed c b).draw = s.draw := rfl
@[simp] theorem State.setEntryListed_listed (c : CpuId) (b : Bool) : (s.setEntryListed c b).listed = s.listed := rfl
@[simp] theorem State.setEntryListed_entryListed (c : CpuId) (b : Bool) : (s.setEntryListed c b).entryListed = s.entryListed.set c b := rfl
@[simp] theorem State.setEntryListed_readData (c : CpuId) (b : Bool) : (s.setEntryListed c b).readData = s.readData := rfl
@[simp] theorem State.setEntryListed_sched (c : CpuId) (b : Bool) : (s.setEntryListed c b).sched = s.sched := rfl
@[simp] theorem State.setEntryListed_tick (c : CpuId) (b : Bool) : (s.setEntryListed c b).tick = s.tick := rfl

@[simp] theorem State.setReadData_cfg (c : CpuId) (v : Word) : (s.setReadData c v).cfg = s.cfg := rfl
@[simp] theorem State.setReadData_status (c : CpuId) (v : Word) : (s.setReadData c v).status = s.status := rfl
@[simp] theorem State.setReadData_mask (c : CpuId) (v : Word) : (s.setReadData c v).mask = s.mask := rfl
@[simp] theorem State.setReadData_cause (c : CpuId) (v : Word) : (s.setReadData c v).cause = s.cause := rfl
@[simp] theorem State.setReadData_owner (c : CpuId) (v : Word) : (s.setReadData c v).owner = s.owner := rfl
@[simp] theorem State.setReadData_bind (c : CpuId) (v : Word) : (s.setReadData c v).bind = s.bind := rfl
@[simp] theorem State.setReadData_bridges (c : CpuId) (v : Word) : (s.setReadData c v).bridges = s.bridges := rfl
@[simp] theorem State.setReadData_bq (c : CpuId) (v : Word) : (s.setReadData c v).bq = s.bq := rfl
@[simp] theorem State.setReadData_mbox (c : CpuId) (v : Word) : (s.setReadData c v).mbox = s.mbox := rfl
@[simp] theorem State.setReadData_disp (c : CpuId) (v : Word) : (s.setReadData c v).disp = s.disp := rfl
@[simp] theorem State.setReadData_send (c : CpuId) (v : Word) : (s.setReadData c v).send = s.send := rfl
@[simp] theorem State.setReadData_fault (c : CpuId) (v : Word) : (s.setReadData c v).fault = s.fault := rfl
@[simp] theorem State.setReadData_hist (c : CpuId) (v : Word) : (s.setReadData c v).hist = s.hist := rfl
@[simp] theorem State.setReadData_prog (c : CpuId) (v : Word) : (s.setReadData c v).prog = s.prog := rfl
@[simp] theorem State.setReadData_index (c : CpuId) (v : Word) : (s.setReadData c v).index = s.index := rfl
@[simp] theorem State.setReadData_self (c : CpuId) (v : Word) : (s.setReadData c v).self = s.self := rfl
@[simp] theorem State.setReadData_draw (c : CpuId) (v : Word) : (s.setReadData c v).draw = s.draw := rfl
@[simp] theorem State.setReadData_listed (c : CpuId) (v : Word) : (s.setReadData c v).listed = s.listed := rfl
@[simp] theorem State.setReadData_entryListed (c : CpuId) (v : Word) : (s.setReadData c v).entryListed = s.entryListed := rfl
@[simp] theorem State.setReadData_readData (c : CpuId) (v : Word) : (s.setReadData c v).readData = s.readData.set c v := rfl
@[simp] theorem State.setReadData_sched (c : CpuId) (v : Word) : (s.setReadData c v).sched = s.sched := rfl
@[simp] theorem State.setReadData_tick (c : CpuId) (v : Word) : (s.setReadData c v).tick = s.tick := rfl

@[simp] theorem State.statusSet_cfg (v : Word) : (s.statusSet v).cfg = s.cfg := rfl
@[simp] theorem State.statusSet_status (v : Word) : (s.statusSet v).status = s.status ||| v := rfl
@[simp] theorem State.statusSet_mask (v : Word) : (s.statusSet v).mask = s.mask := rfl
@[simp] theorem State.statusSet_cause (v : Word) : (s.statusSet v).cause = s.cause := rfl
@[simp] theorem State.statusSet_owner (v : Word) : (s.statusSet v).owner = s.owner := rfl
@[simp] theorem State.statusSet_bind (v : Word) : (s.statusSet v).bind = s.bind := rfl
@[simp] theorem State.statusSet_bridges (v : Word) : (s.statusSet v).bridges = s.bridges := rfl
@[simp] theorem State.statusSet_bq (v : Word) : (s.statusSet v).bq = s.bq := rfl
@[simp] theorem State.statusSet_mbox (v : Word) : (s.statusSet v).mbox = s.mbox := rfl
@[simp] theorem State.statusSet_disp (v : Word) : (s.statusSet v).disp = s.disp := rfl
@[simp] theorem State.statusSet_send (v : Word) : (s.statusSet v).send = s.send := rfl
@[simp] theorem State.statusSet_fault (v : Word) : (s.statusSet v).fault = s.fault := rfl
@[simp] theorem State.statusSet_hist (v : Word) : (s.statusSet v).hist = s.hist := rfl
@[simp] theorem State.statusSet_prog (v : Word) : (s.statusSet v).prog = s.prog := rfl
@[simp] theorem State.statusSet_index (v : Word) : (s.statusSet v).index = s.index := rfl
@[simp] theorem State.statusSet_self (v : Word) : (s.statusSet v).self = s.self := rfl
@[simp] theorem State.statusSet_draw (v : Word) : (s.statusSet v).draw = s.draw := rfl
@[simp] theorem State.statusSet_listed (v : Word) : (s.statusSet v).listed = s.listed := rfl
@[simp] theorem State.statusSet_entryListed (v : Word) : (s.statusSet v).entryListed = s.entryListed := rfl
@[simp] theorem State.statusSet_readData (v : Word) : (s.statusSet v).readData = s.readData := rfl
@[simp] theorem State.statusSet_sched (v : Word) : (s.statusSet v).sched = s.sched := rfl
@[simp] theorem State.statusSet_tick (v : Word) : (s.statusSet v).tick = s.tick := rfl

@[simp] theorem State.statusClear_cfg (v : Word) : (s.statusClear v).cfg = s.cfg := rfl
@[simp] theorem State.statusClear_status (v : Word) : (s.statusClear v).status = s.status &&& ~~~v := rfl
@[simp] theorem State.statusClear_mask (v : Word) : (s.statusClear v).mask = s.mask := rfl
@[simp] theorem State.statusClear_cause (v : Word) : (s.statusClear v).cause = s.cause := rfl
@[simp] theorem State.statusClear_owner (v : Word) : (s.statusClear v).owner = s.owner := rfl
@[simp] theorem State.statusClear_bind (v : Word) : (s.statusClear v).bind = s.bind := rfl
@[simp] theorem State.statusClear_bridges (v : Word) : (s.statusClear v).bridges = s.bridges := rfl
@[simp] theorem State.statusClear_bq (v : Word) : (s.statusClear v).bq = s.bq := rfl
@[simp] theorem State.statusClear_mbox (v : Word) : (s.statusClear v).mbox = s.mbox := rfl
@[simp] theorem State.statusClear_disp (v : Word) : (s.statusClear v).disp = s.disp := rfl
@[simp] theorem State.statusClear_send (v : Word) : (s.statusClear v).send = s.send := rfl
@[simp] theorem State.statusClear_fault (v : Word) : (s.statusClear v).fault = s.fault := rfl
@[simp] theorem State.statusClear_hist (v : Word) : (s.statusClear v).hist = s.hist := rfl
@[simp] theorem State.statusClear_prog (v : Word) : (s.statusClear v).prog = s.prog := rfl
@[simp] theorem State.statusClear_index (v : Word) : (s.statusClear v).index = s.index := rfl
@[simp] theorem State.statusClear_self (v : Word) : (s.statusClear v).self = s.self := rfl
@[simp] theorem State.statusClear_draw (v : Word) : (s.statusClear v).draw = s.draw := rfl
@[simp] theorem State.statusClear_listed (v : Word) : (s.statusClear v).listed = s.listed := rfl
@[simp] theorem State.statusClear_entryListed (v : Word) : (s.statusClear v).entryListed = s.entryListed := rfl
@[simp] theorem State.statusClear_readData (v : Word) : (s.statusClear v).readData = s.readData := rfl
@[simp] theorem State.statusClear_sched (v : Word) : (s.statusClear v).sched = s.sched := rfl
@[simp] theorem State.statusClear_tick (v : Word) : (s.statusClear v).tick = s.tick := rfl

@[simp] theorem State.causeSet_cfg (v : Word) : (s.causeSet v).cfg = s.cfg := rfl
@[simp] theorem State.causeSet_status (v : Word) : (s.causeSet v).status = s.status := rfl
@[simp] theorem State.causeSet_mask (v : Word) : (s.causeSet v).mask = s.mask := rfl
@[simp] theorem State.causeSet_cause (v : Word) : (s.causeSet v).cause = s.cause ||| v := rfl
@[simp] theorem State.causeSet_owner (v : Word) : (s.causeSet v).owner = s.owner := rfl
@[simp] theorem State.causeSet_bind (v : Word) : (s.causeSet v).bind = s.bind := rfl
@[simp] theorem State.causeSet_bridges (v : Word) : (s.causeSet v).bridges = s.bridges := rfl
@[simp] theorem State.causeSet_bq (v : Word) : (s.causeSet v).bq = s.bq := rfl
@[simp] theorem State.causeSet_mbox (v : Word) : (s.causeSet v).mbox = s.mbox := rfl
@[simp] theorem State.causeSet_disp (v : Word) : (s.causeSet v).disp = s.disp := rfl
@[simp] theorem State.causeSet_send (v : Word) : (s.causeSet v).send = s.send := rfl
@[simp] theorem State.causeSet_fault (v : Word) : (s.causeSet v).fault = s.fault := rfl
@[simp] theorem State.causeSet_hist (v : Word) : (s.causeSet v).hist = s.hist := rfl
@[simp] theorem State.causeSet_prog (v : Word) : (s.causeSet v).prog = s.prog := rfl
@[simp] theorem State.causeSet_index (v : Word) : (s.causeSet v).index = s.index := rfl
@[simp] theorem State.causeSet_self (v : Word) : (s.causeSet v).self = s.self := rfl
@[simp] theorem State.causeSet_draw (v : Word) : (s.causeSet v).draw = s.draw := rfl
@[simp] theorem State.causeSet_listed (v : Word) : (s.causeSet v).listed = s.listed := rfl
@[simp] theorem State.causeSet_entryListed (v : Word) : (s.causeSet v).entryListed = s.entryListed := rfl
@[simp] theorem State.causeSet_readData (v : Word) : (s.causeSet v).readData = s.readData := rfl
@[simp] theorem State.causeSet_sched (v : Word) : (s.causeSet v).sched = s.sched := rfl
@[simp] theorem State.causeSet_tick (v : Word) : (s.causeSet v).tick = s.tick := rfl

@[simp] theorem State.emit_cfg (e : Event) : (s.emit e).cfg = s.cfg := rfl
@[simp] theorem State.emit_status (e : Event) : (s.emit e).status = s.status := rfl
@[simp] theorem State.emit_mask (e : Event) : (s.emit e).mask = s.mask := rfl
@[simp] theorem State.emit_cause (e : Event) : (s.emit e).cause = s.cause := rfl
@[simp] theorem State.emit_owner (e : Event) : (s.emit e).owner = s.owner := rfl
@[simp] theorem State.emit_bind (e : Event) : (s.emit e).bind = s.bind := rfl
@[simp] theorem State.emit_bridges (e : Event) : (s.emit e).bridges = s.bridges := rfl
@[simp] theorem State.emit_bq (e : Event) : (s.emit e).bq = s.bq := rfl
@[simp] theorem State.emit_mbox (e : Event) : (s.emit e).mbox = s.mbox := rfl
@[simp] theorem State.emit_disp (e : Event) : (s.emit e).disp = s.disp := rfl
@[simp] theorem State.emit_send (e : Event) : (s.emit e).send = s.send := rfl
@[simp] theorem State.emit_fault (e : Event) : (s.emit e).fault = s.fault := rfl
@[simp] theorem State.emit_hist (e : Event) : (s.emit e).hist = s.hist ++ [e] := rfl
@[simp] theorem State.emit_prog (e : Event) : (s.emit e).prog = s.prog := rfl
@[simp] theorem State.emit_index (e : Event) : (s.emit e).index = s.index := rfl
@[simp] theorem State.emit_self (e : Event) : (s.emit e).self = s.self := rfl
@[simp] theorem State.emit_draw (e : Event) : (s.emit e).draw = s.draw := rfl
@[simp] theorem State.emit_listed (e : Event) : (s.emit e).listed = s.listed := rfl
@[simp] theorem State.emit_entryListed (e : Event) : (s.emit e).entryListed = s.entryListed := rfl
@[simp] theorem State.emit_readData (e : Event) : (s.emit e).readData = s.readData := rfl
@[simp] theorem State.emit_sched (e : Event) : (s.emit e).sched = s.sched := rfl
@[simp] theorem State.emit_tick (e : Event) : (s.emit e).tick = s.tick := rfl

@[simp] theorem State.respond_cfg (op : Op) (v : RespValue) : (s.respond op v).cfg = s.cfg := rfl
@[simp] theorem State.respond_status (op : Op) (v : RespValue) : (s.respond op v).status = s.status := rfl
@[simp] theorem State.respond_mask (op : Op) (v : RespValue) : (s.respond op v).mask = s.mask := rfl
@[simp] theorem State.respond_cause (op : Op) (v : RespValue) : (s.respond op v).cause = s.cause := rfl
@[simp] theorem State.respond_owner (op : Op) (v : RespValue) : (s.respond op v).owner = s.owner := rfl
@[simp] theorem State.respond_bind (op : Op) (v : RespValue) : (s.respond op v).bind = s.bind := rfl
@[simp] theorem State.respond_bridges (op : Op) (v : RespValue) : (s.respond op v).bridges = s.bridges := rfl
@[simp] theorem State.respond_bq (op : Op) (v : RespValue) : (s.respond op v).bq = s.bq := rfl
@[simp] theorem State.respond_mbox (op : Op) (v : RespValue) : (s.respond op v).mbox = s.mbox := rfl
@[simp] theorem State.respond_disp (op : Op) (v : RespValue) : (s.respond op v).disp = s.disp := rfl
@[simp] theorem State.respond_send (op : Op) (v : RespValue) : (s.respond op v).send = s.send := rfl
@[simp] theorem State.respond_fault (op : Op) (v : RespValue) : (s.respond op v).fault = s.fault := rfl
@[simp] theorem State.respond_hist (op : Op) (v : RespValue) : (s.respond op v).hist = s.hist ++ [.resp s.self op v] := rfl
@[simp] theorem State.respond_prog (op : Op) (v : RespValue) : (s.respond op v).prog = s.prog := rfl
@[simp] theorem State.respond_index (op : Op) (v : RespValue) : (s.respond op v).index = s.index := rfl
@[simp] theorem State.respond_self (op : Op) (v : RespValue) : (s.respond op v).self = s.self := rfl
@[simp] theorem State.respond_draw (op : Op) (v : RespValue) : (s.respond op v).draw = s.draw := rfl
@[simp] theorem State.respond_listed (op : Op) (v : RespValue) : (s.respond op v).listed = s.listed := rfl
@[simp] theorem State.respond_entryListed (op : Op) (v : RespValue) : (s.respond op v).entryListed = s.entryListed := rfl
@[simp] theorem State.respond_readData (op : Op) (v : RespValue) : (s.respond op v).readData = s.readData := rfl
@[simp] theorem State.respond_sched (op : Op) (v : RespValue) : (s.respond op v).sched = s.sched := rfl
@[simp] theorem State.respond_tick (op : Op) (v : RespValue) : (s.respond op v).tick = s.tick := rfl

@[simp] theorem State.advance_cfg : s.advance.cfg = s.cfg := rfl
@[simp] theorem State.advance_status : s.advance.status = s.status := rfl
@[simp] theorem State.advance_mask : s.advance.mask = s.mask := rfl
@[simp] theorem State.advance_cause : s.advance.cause = s.cause := rfl
@[simp] theorem State.advance_owner : s.advance.owner = s.owner := rfl
@[simp] theorem State.advance_bind : s.advance.bind = s.bind := rfl
@[simp] theorem State.advance_bridges : s.advance.bridges = s.bridges := rfl
@[simp] theorem State.advance_bq : s.advance.bq = s.bq := rfl
@[simp] theorem State.advance_mbox : s.advance.mbox = s.mbox := rfl
@[simp] theorem State.advance_disp : s.advance.disp = s.disp := rfl
@[simp] theorem State.advance_send : s.advance.send = s.send := rfl
@[simp] theorem State.advance_fault : s.advance.fault = s.fault := rfl
@[simp] theorem State.advance_hist : s.advance.hist = s.hist := rfl
@[simp] theorem State.advance_prog : s.advance.prog = s.prog := rfl
@[simp] theorem State.advance_index : s.advance.index = s.index.set s.self (s.index[s.self] + 1) := rfl
@[simp] theorem State.advance_self : s.advance.self = s.self := rfl
@[simp] theorem State.advance_draw : s.advance.draw = s.draw := rfl
@[simp] theorem State.advance_listed : s.advance.listed = s.listed := rfl
@[simp] theorem State.advance_entryListed : s.advance.entryListed = s.entryListed := rfl
@[simp] theorem State.advance_readData : s.advance.readData = s.readData := rfl
@[simp] theorem State.advance_sched : s.advance.sched = s.sched := rfl
@[simp] theorem State.advance_tick : s.advance.tick = s.tick := rfl

@[simp] theorem State.complete_cfg (op : Op) (v : RespValue) : (s.complete op v).cfg = s.cfg := rfl
@[simp] theorem State.complete_status (op : Op) (v : RespValue) : (s.complete op v).status = s.status := rfl
@[simp] theorem State.complete_mask (op : Op) (v : RespValue) : (s.complete op v).mask = s.mask := rfl
@[simp] theorem State.complete_cause (op : Op) (v : RespValue) : (s.complete op v).cause = s.cause := rfl
@[simp] theorem State.complete_owner (op : Op) (v : RespValue) : (s.complete op v).owner = s.owner := rfl
@[simp] theorem State.complete_bind (op : Op) (v : RespValue) : (s.complete op v).bind = s.bind := rfl
@[simp] theorem State.complete_bridges (op : Op) (v : RespValue) : (s.complete op v).bridges = s.bridges := rfl
@[simp] theorem State.complete_bq (op : Op) (v : RespValue) : (s.complete op v).bq = s.bq := rfl
@[simp] theorem State.complete_mbox (op : Op) (v : RespValue) : (s.complete op v).mbox = s.mbox := rfl
@[simp] theorem State.complete_disp (op : Op) (v : RespValue) : (s.complete op v).disp = s.disp := rfl
@[simp] theorem State.complete_send (op : Op) (v : RespValue) : (s.complete op v).send = s.send := rfl
@[simp] theorem State.complete_fault (op : Op) (v : RespValue) : (s.complete op v).fault = s.fault := rfl
@[simp] theorem State.complete_hist (op : Op) (v : RespValue) : (s.complete op v).hist = s.hist ++ [.resp s.self op v] := rfl
@[simp] theorem State.complete_prog (op : Op) (v : RespValue) : (s.complete op v).prog = s.prog := rfl
@[simp] theorem State.complete_index (op : Op) (v : RespValue) : (s.complete op v).index = s.index.set s.self (s.index[s.self] + 1) := rfl
@[simp] theorem State.complete_self (op : Op) (v : RespValue) : (s.complete op v).self = s.self := rfl
@[simp] theorem State.complete_draw (op : Op) (v : RespValue) : (s.complete op v).draw = s.draw := rfl
@[simp] theorem State.complete_listed (op : Op) (v : RespValue) : (s.complete op v).listed = s.listed := rfl
@[simp] theorem State.complete_entryListed (op : Op) (v : RespValue) : (s.complete op v).entryListed = s.entryListed := rfl
@[simp] theorem State.complete_readData (op : Op) (v : RespValue) : (s.complete op v).readData = s.readData := rfl
@[simp] theorem State.complete_sched (op : Op) (v : RespValue) : (s.complete op v).sched = s.sched := rfl
@[simp] theorem State.complete_tick (op : Op) (v : RespValue) : (s.complete op v).tick = s.tick := rfl

@[simp] theorem State.raise_cfg (code : FaultCode) : (s.raise code).cfg = s.cfg := rfl
@[simp] theorem State.raise_status (code : FaultCode) : (s.raise code).status = s.status := rfl
@[simp] theorem State.raise_mask (code : FaultCode) : (s.raise code).mask = s.mask := rfl
@[simp] theorem State.raise_cause (code : FaultCode) : (s.raise code).cause = s.cause := rfl
@[simp] theorem State.raise_owner (code : FaultCode) : (s.raise code).owner = s.owner := rfl
@[simp] theorem State.raise_bind (code : FaultCode) : (s.raise code).bind = s.bind := rfl
@[simp] theorem State.raise_bridges (code : FaultCode) : (s.raise code).bridges = s.bridges := rfl
@[simp] theorem State.raise_bq (code : FaultCode) : (s.raise code).bq = s.bq := rfl
@[simp] theorem State.raise_mbox (code : FaultCode) : (s.raise code).mbox = s.mbox := rfl
@[simp] theorem State.raise_disp (code : FaultCode) : (s.raise code).disp = s.disp := rfl
@[simp] theorem State.raise_send (code : FaultCode) : (s.raise code).send = s.send := rfl
@[simp] theorem State.raise_fault (code : FaultCode) : (s.raise code).fault = s.fault.or (some code) := rfl
@[simp] theorem State.raise_hist (code : FaultCode) : (s.raise code).hist = s.hist ++ [.fault s.self code] := rfl
@[simp] theorem State.raise_prog (code : FaultCode) : (s.raise code).prog = s.prog := rfl
@[simp] theorem State.raise_index (code : FaultCode) : (s.raise code).index = s.index := rfl
@[simp] theorem State.raise_self (code : FaultCode) : (s.raise code).self = s.self := rfl
@[simp] theorem State.raise_draw (code : FaultCode) : (s.raise code).draw = s.draw := rfl
@[simp] theorem State.raise_listed (code : FaultCode) : (s.raise code).listed = s.listed := rfl
@[simp] theorem State.raise_entryListed (code : FaultCode) : (s.raise code).entryListed = s.entryListed := rfl
@[simp] theorem State.raise_readData (code : FaultCode) : (s.raise code).readData = s.readData := rfl
@[simp] theorem State.raise_sched (code : FaultCode) : (s.raise code).sched = s.sched := rfl
@[simp] theorem State.raise_tick (code : FaultCode) : (s.raise code).tick = s.tick := rfl

@[simp] theorem State.post_cfg (p : Posted) : (s.post p).cfg = s.cfg := rfl
@[simp] theorem State.post_status (p : Posted) : (s.post p).status = s.status := rfl
@[simp] theorem State.post_mask (p : Posted) : (s.post p).mask = s.mask := rfl
@[simp] theorem State.post_cause (p : Posted) : (s.post p).cause = s.cause := rfl
@[simp] theorem State.post_owner (p : Posted) : (s.post p).owner = s.owner := rfl
@[simp] theorem State.post_bind (p : Posted) : (s.post p).bind = s.bind := rfl
@[simp] theorem State.post_bridges (p : Posted) : (s.post p).bridges = s.bridges := rfl
@[simp] theorem State.post_bq (p : Posted) : (s.post p).bq = s.bq ++ [p] := rfl
@[simp] theorem State.post_mbox (p : Posted) : (s.post p).mbox = s.mbox := rfl
@[simp] theorem State.post_disp (p : Posted) : (s.post p).disp = s.disp := rfl
@[simp] theorem State.post_send (p : Posted) : (s.post p).send = s.send := rfl
@[simp] theorem State.post_fault (p : Posted) : (s.post p).fault = s.fault := rfl
@[simp] theorem State.post_hist (p : Posted) : (s.post p).hist = s.hist := rfl
@[simp] theorem State.post_prog (p : Posted) : (s.post p).prog = s.prog := rfl
@[simp] theorem State.post_index (p : Posted) : (s.post p).index = s.index := rfl
@[simp] theorem State.post_self (p : Posted) : (s.post p).self = s.self := rfl
@[simp] theorem State.post_draw (p : Posted) : (s.post p).draw = s.draw := rfl
@[simp] theorem State.post_listed (p : Posted) : (s.post p).listed = s.listed := rfl
@[simp] theorem State.post_entryListed (p : Posted) : (s.post p).entryListed = s.entryListed := rfl
@[simp] theorem State.post_readData (p : Posted) : (s.post p).readData = s.readData := rfl
@[simp] theorem State.post_sched (p : Posted) : (s.post p).sched = s.sched := rfl
@[simp] theorem State.post_tick (p : Posted) : (s.post p).tick = s.tick := rfl

@[simp] theorem State.flush_cfg : s.flush.cfg = s.cfg := rfl
@[simp] theorem State.flush_status : s.flush.status = s.status := rfl
@[simp] theorem State.flush_mask : s.flush.mask = s.mask := rfl
@[simp] theorem State.flush_cause : s.flush.cause = s.cause := rfl
@[simp] theorem State.flush_owner : s.flush.owner = s.owner := rfl
@[simp] theorem State.flush_bind : s.flush.bind = s.bind := rfl
@[simp] theorem State.flush_bridges : s.flush.bridges = s.bq.foldl performPosted s.bridges := rfl
@[simp] theorem State.flush_bq : s.flush.bq = [] := rfl
@[simp] theorem State.flush_mbox : s.flush.mbox = s.mbox := rfl
@[simp] theorem State.flush_disp : s.flush.disp = s.disp := rfl
@[simp] theorem State.flush_send : s.flush.send = s.send := rfl
@[simp] theorem State.flush_fault : s.flush.fault = s.fault := rfl
@[simp] theorem State.flush_hist : s.flush.hist = s.hist := rfl
@[simp] theorem State.flush_prog : s.flush.prog = s.prog := rfl
@[simp] theorem State.flush_index : s.flush.index = s.index := rfl
@[simp] theorem State.flush_self : s.flush.self = s.self := rfl
@[simp] theorem State.flush_draw : s.flush.draw = s.draw := rfl
@[simp] theorem State.flush_listed : s.flush.listed = s.listed := rfl
@[simp] theorem State.flush_entryListed : s.flush.entryListed = s.entryListed := rfl
@[simp] theorem State.flush_readData : s.flush.readData = s.readData := rfl
@[simp] theorem State.flush_sched : s.flush.sched = s.sched := rfl
@[simp] theorem State.flush_tick : s.flush.tick = s.tick := rfl

@[simp] theorem State.initController_cfg : s.initController.cfg = s.cfg := rfl
@[simp] theorem State.initController_status : s.initController.status = s.status := rfl
@[simp] theorem State.initController_mask : s.initController.mask = s.mask.mapFinIdx (fun k v _ => if k < s.cfg.ncpu then 0 else v) := rfl
@[simp] theorem State.initController_cause : s.initController.cause = s.cause := rfl
@[simp] theorem State.initController_owner : s.initController.owner = Vector.replicate 64 none := rfl
@[simp] theorem State.initController_bind : s.initController.bind = s.bind := rfl
@[simp] theorem State.initController_bridges : s.initController.bridges = s.bridges := rfl
@[simp] theorem State.initController_bq : s.initController.bq = s.bq := rfl
@[simp] theorem State.initController_mbox : s.initController.mbox = s.mbox := rfl
@[simp] theorem State.initController_disp : s.initController.disp = s.disp := rfl
@[simp] theorem State.initController_send : s.initController.send = s.send := rfl
@[simp] theorem State.initController_fault : s.initController.fault = s.fault := rfl
@[simp] theorem State.initController_hist : s.initController.hist = s.hist := rfl
@[simp] theorem State.initController_prog : s.initController.prog = s.prog := rfl
@[simp] theorem State.initController_index : s.initController.index = s.index := rfl
@[simp] theorem State.initController_self : s.initController.self = s.self := rfl
@[simp] theorem State.initController_draw : s.initController.draw = s.draw := rfl
@[simp] theorem State.initController_listed : s.initController.listed = s.listed := rfl
@[simp] theorem State.initController_entryListed : s.initController.entryListed = s.entryListed := rfl
@[simp] theorem State.initController_readData : s.initController.readData = s.readData := rfl
@[simp] theorem State.initController_sched : s.initController.sched = s.sched := rfl
@[simp] theorem State.initController_tick : s.initController.tick = s.tick := rfl

@[simp] theorem State.begin_cfg (c : CpuId) (x : Draw) (b : Bool) : (s.begin c x b).cfg = s.cfg := rfl
@[simp] theorem State.begin_status (c : CpuId) (x : Draw) (b : Bool) : (s.begin c x b).status = s.status := rfl
@[simp] theorem State.begin_mask (c : CpuId) (x : Draw) (b : Bool) : (s.begin c x b).mask = s.mask := rfl
@[simp] theorem State.begin_cause (c : CpuId) (x : Draw) (b : Bool) : (s.begin c x b).cause = s.cause := rfl
@[simp] theorem State.begin_owner (c : CpuId) (x : Draw) (b : Bool) : (s.begin c x b).owner = s.owner := rfl
@[simp] theorem State.begin_bind (c : CpuId) (x : Draw) (b : Bool) : (s.begin c x b).bind = s.bind := rfl
@[simp] theorem State.begin_bridges (c : CpuId) (x : Draw) (b : Bool) : (s.begin c x b).bridges = s.bridges := rfl
@[simp] theorem State.begin_bq (c : CpuId) (x : Draw) (b : Bool) : (s.begin c x b).bq = s.bq := rfl
@[simp] theorem State.begin_mbox (c : CpuId) (x : Draw) (b : Bool) : (s.begin c x b).mbox = s.mbox := rfl
@[simp] theorem State.begin_disp (c : CpuId) (x : Draw) (b : Bool) : (s.begin c x b).disp = s.disp := rfl
@[simp] theorem State.begin_send (c : CpuId) (x : Draw) (b : Bool) : (s.begin c x b).send = s.send := rfl
@[simp] theorem State.begin_fault (c : CpuId) (x : Draw) (b : Bool) : (s.begin c x b).fault = s.fault := rfl
@[simp] theorem State.begin_hist (c : CpuId) (x : Draw) (b : Bool) : (s.begin c x b).hist = s.hist := rfl
@[simp] theorem State.begin_prog (c : CpuId) (x : Draw) (b : Bool) : (s.begin c x b).prog = s.prog := rfl
@[simp] theorem State.begin_index (c : CpuId) (x : Draw) (b : Bool) : (s.begin c x b).index = s.index := rfl
@[simp] theorem State.begin_self (c : CpuId) (x : Draw) (b : Bool) : (s.begin c x b).self = c := rfl
@[simp] theorem State.begin_draw (c : CpuId) (x : Draw) (b : Bool) : (s.begin c x b).draw = x := rfl
@[simp] theorem State.begin_listed (c : CpuId) (x : Draw) (b : Bool) : (s.begin c x b).listed = b := rfl
@[simp] theorem State.begin_entryListed (c : CpuId) (x : Draw) (b : Bool) : (s.begin c x b).entryListed = s.entryListed := rfl
@[simp] theorem State.begin_readData (c : CpuId) (x : Draw) (b : Bool) : (s.begin c x b).readData = s.readData := rfl
@[simp] theorem State.begin_sched (c : CpuId) (x : Draw) (b : Bool) : (s.begin c x b).sched = s.sched := rfl
@[simp] theorem State.begin_tick (c : CpuId) (x : Draw) (b : Bool) : (s.begin c x b).tick = s.tick := rfl

end

end Sys2Proof.Machine
end

