-- ==== Sys2Proof/Laws/Bits.lean ====
section
/-! SUPPORT. The laws of single bits and of the descending scan (00_scope.md R8, R9). -/

namespace Sys2Proof.Machine

@[simp] theorem getLsbD_bit (l : Line) (i : Nat) : (bit l.val).getLsbD i = decide (i = l.val) := by
  have hl := l.isLt
  simp only [bit, BitVec.getLsbD_shiftLeft, BitVec.getLsbD_one]
  by_cases h : i = l.val
  · subst h; simp [hl]
  · by_cases h2 : i < l.val
    · simp [h2, h]
    · have : ¬ i - l.val = 0 := by omega
      simp [h, this]

@[simp] theorem getElem_bit (l : Line) (i : Nat) (h : i < 64) : (bit l.val)[i] = decide (i = l.val) := by
  rw [← BitVec.getLsbD_eq_getElem, getLsbD_bit]

/-- The bits of `v &&& ~~~w` below 64. -/
theorem getLsbD_andNot (v w : Word) (i : Line) :
    (v &&& ~~~w).getLsbD i.val = (v.getLsbD i.val && !w.getLsbD i.val) := by
  simp [i.isLt]

/-- Clearing one line's bit leaves the other bits. -/
theorem getLsbD_clearLine (v : Word) (l i : Line) :
    (v &&& ~~~(bit l.val)).getLsbD i.val = (v.getLsbD i.val && decide (i ≠ l)) := by
  rw [getLsbD_andNot]
  simp [Fin.ext_iff]

/-- Setting one line's bit leaves the other bits. -/
theorem getLsbD_setLine (v : Word) (l i : Line) :
    (v ||| bit l.val).getLsbD i.val = (v.getLsbD i.val || decide (i = l)) := by
  simp [Fin.ext_iff]

/-- Two register values with the same bit for every line are equal. -/
theorem word_ext {v w : Word} (h : ∀ l : Line, v.getLsbD l.val = w.getLsbD l.val) : v = w :=
  BitVec.eq_of_getLsbD_eq fun i hi => h ⟨i, hi⟩

theorem eq_zero_iff_no_bit (v : Word) : v = 0 ↔ ∀ l : Line, v.getLsbD l.val = false := by
  constructor
  · rintro rfl l; simp
  · intro h; exact word_ext fun l => by rw [h l]; simp

theorem mem_bitsDescBelow (v : Word) (l : Line) :
    ∀ (n : Nat) (h : n ≤ 64), l ∈ bitsDescBelow v n h ↔ l.val < n ∧ v.getLsbD l.val = true
  | 0, _ => by simp [bitsDescBelow]
  | n + 1, h => by
    have ih := mem_bitsDescBelow v l n (Nat.le_of_succ_le h)
    by_cases hb : v.getLsbD n = true
    · simp only [bitsDescBelow, hb, if_true, List.mem_cons, ih, Fin.ext_iff]
      constructor
      · rintro (h1 | ⟨h1, h2⟩)
        · exact ⟨by omega, by rw [h1]; exact hb⟩
        · exact ⟨by omega, h2⟩
      · rintro ⟨h1, h2⟩
        by_cases h3 : l.val = n
        · exact .inl h3
        · exact .inr ⟨by omega, h2⟩
    · simp only [bitsDescBelow, hb, if_false, ih, Bool.false_eq_true]
      constructor
      · rintro ⟨h1, h2⟩; exact ⟨by omega, h2⟩
      · rintro ⟨h1, h2⟩
        refine ⟨?_, h2⟩
        rcases Nat.lt_succ_iff_lt_or_eq.1 h1 with h3 | h3
        · exact h3
        · rw [h3] at h2; exact absurd h2 hb

/-- `bitsDesc(v)` lists exactly the set bits of `v` (R9). -/
@[simp] theorem mem_bitsDesc (v : Word) (l : Line) : l ∈ bitsDesc v ↔ v.getLsbD l.val = true := by
  simp [bitsDesc, mem_bitsDescBelow, l.isLt]

theorem bitsDescBelow_descends (v : Word) :
    ∀ (n : Nat) (h : n ≤ 64), (bitsDescBelow v n h).Pairwise (fun a b => b.val < a.val)
  | 0, _ => by simp [bitsDescBelow]
  | n + 1, h => by
    have ih := bitsDescBelow_descends v n (Nat.le_of_succ_le h)
    by_cases hb : v.getLsbD n = true
    · simp only [bitsDescBelow, hb, if_true, List.pairwise_cons]
      exact ⟨fun a ha => ((mem_bitsDescBelow v a n _).1 ha).1, ih⟩
    · simpa [bitsDescBelow, hb] using ih

/-- `bitsDesc(v)` is strictly descending (R9). -/
theorem bitsDesc_descends (v : Word) : (bitsDesc v).Pairwise (fun a b => b.val < a.val) :=
  bitsDescBelow_descends v 64 _

/-- A strictly descending list is `bitsDesc(v)` as soon as it lists the set bits of `v`. -/
theorem eq_bitsDesc {v : Word} {xs : List Line} (hd : xs.Pairwise (fun a b => b.val < a.val))
    (hm : ∀ l, l ∈ xs ↔ v.getLsbD l.val = true) : xs = bitsDesc v := by
  have nodup : ∀ {ys : List Line}, ys.Pairwise (fun a b => b.val < a.val) → ys.Nodup := fun h =>
    h.imp fun hab heq => by subst heq; exact absurd hab (Nat.lt_irrefl _)
  have hp : xs.Perm (bitsDesc v) :=
    (List.perm_ext_iff_of_nodup (nodup hd) (nodup (bitsDesc_descends v))).2 fun l => by rw [hm, mem_bitsDesc]
  exact hp.eq_of_pairwise (fun a b _ _ h1 h2 => absurd (Nat.lt_trans h1 h2) (Nat.lt_irrefl _)) hd
    (bitsDesc_descends v)

@[simp] theorem bitsDesc_zero : bitsDesc 0#64 = [] :=
  (eq_bitsDesc (by simp) (by simp)).symm

/-- `msb` finds nothing only in zero (R9). -/
theorem msb_eq_none (v : Word) : msb v = none ↔ v = 0 := by
  constructor
  · intro h
    have : bitsDesc v = [] := List.head?_eq_none_iff.1 h
    refine (eq_zero_iff_no_bit v).2 fun l => ?_
    have hn : l ∉ bitsDesc v := by rw [this]; simp
    simpa using hn
  · rintro rfl; simp [msb]

/-- The largest set bit heads `bitsDesc`; clearing it leaves the rest (R179). -/
theorem bitsDesc_of_msb {v : Word} {l : Line} (h : msb v = some l) :
    bitsDesc v = l :: bitsDesc (v &&& ~~~(bit l.val)) := by
  obtain ⟨rest, hr⟩ : ∃ rest, bitsDesc v = l :: rest := by
    cases hv : bitsDesc v with
    | nil => simp [msb, hv] at h
    | cons a rest => simp [msb, hv] at h; exact ⟨rest, by rw [h]⟩
  have hd := bitsDesc_descends v
  rw [hr] at hd ⊢
  obtain ⟨hlt, hd'⟩ := List.pairwise_cons.1 hd
  congr 1
  refine eq_bitsDesc hd' fun a => ?_
  rw [getLsbD_clearLine]
  have hm : a ∈ bitsDesc v ↔ a = l ∨ a ∈ rest := by rw [hr]; simp
  rw [mem_bitsDesc] at hm
  constructor
  · intro ha
    have : a ≠ l := fun e => by have := hlt a ha; rw [e] at this; omega
    simp [hm.2 (.inr ha), this]
  · intro ha
    simp only [Bool.and_eq_true, decide_eq_true_eq] at ha
    exact (hm.1 ha.1).resolve_left ha.2

/-- The largest set bit is set, and no higher bit is. -/
theorem msb_spec {v : Word} {l : Line} (h : msb v = some l) :
    v.getLsbD l.val = true ∧ ∀ i, l.val < i → v.getLsbD i = false := by
  have hb := bitsDesc_of_msb h
  constructor
  · rw [← mem_bitsDesc, hb]; simp
  · intro i hi
    by_cases h64 : i < 64
    · by_contra hc
      have hc' : v.getLsbD i = true := by simpa using hc
      have hm : (⟨i, h64⟩ : Line) ∈ bitsDesc v := by simpa using hc'
      have hd := bitsDesc_descends v
      rw [hb] at hm hd
      rcases List.mem_cons.1 hm with h1 | h1
      · have := congrArg Fin.val h1; simp at this; omega
      · have := (List.pairwise_cons.1 hd).1 _ h1; simp at this; omega
    · exact BitVec.getLsbD_of_ge v i (by omega)

end Sys2Proof.Machine
end

