-- ==== Sys2Proof/Laws/Ops.lean ====
section
/-! SUPPORT. For each shared effect of the commands, the dispatcher and the agents: the fields it leaves alone, and what it does to the others. -/

namespace Sys2Proof.Machine

section
variable (s : State)

/-! MASK (R146) touches the mask registers only. -/

@[simp] theorem State.maskLine_cfg (l : Line) : (s.maskLine l).cfg = s.cfg := by unfold State.maskLine; split <;> rfl
@[simp] theorem State.maskLine_status (l : Line) : (s.maskLine l).status = s.status := by unfold State.maskLine; split <;> rfl
@[simp] theorem State.maskLine_cause (l : Line) : (s.maskLine l).cause = s.cause := by unfold State.maskLine; split <;> rfl
@[simp] theorem State.maskLine_owner (l : Line) : (s.maskLine l).owner = s.owner := by unfold State.maskLine; split <;> rfl
@[simp] theorem State.maskLine_bind (l : Line) : (s.maskLine l).bind = s.bind := by unfold State.maskLine; split <;> rfl
@[simp] theorem State.maskLine_bridges (l : Line) : (s.maskLine l).bridges = s.bridges := by unfold State.maskLine; split <;> rfl
@[simp] theorem State.maskLine_bq (l : Line) : (s.maskLine l).bq = s.bq := by unfold State.maskLine; split <;> rfl
@[simp] theorem State.maskLine_mbox (l : Line) : (s.maskLine l).mbox = s.mbox := by unfold State.maskLine; split <;> rfl
@[simp] theorem State.maskLine_disp (l : Line) : (s.maskLine l).disp = s.disp := by unfold State.maskLine; split <;> rfl
@[simp] theorem State.maskLine_send (l : Line) : (s.maskLine l).send = s.send := by unfold State.maskLine; split <;> rfl
@[simp] theorem State.maskLine_fault (l : Line) : (s.maskLine l).fault = s.fault := by unfold State.maskLine; split <;> rfl
@[simp] theorem State.maskLine_hist (l : Line) : (s.maskLine l).hist = s.hist := by unfold State.maskLine; split <;> rfl
@[simp] theorem State.maskLine_prog (l : Line) : (s.maskLine l).prog = s.prog := by unfold State.maskLine; split <;> rfl
@[simp] theorem State.maskLine_index (l : Line) : (s.maskLine l).index = s.index := by unfold State.maskLine; split <;> rfl
@[simp] theorem State.maskLine_self (l : Line) : (s.maskLine l).self = s.self := by unfold State.maskLine; split <;> rfl
@[simp] theorem State.maskLine_draw (l : Line) : (s.maskLine l).draw = s.draw := by unfold State.maskLine; split <;> rfl
@[simp] theorem State.maskLine_listed (l : Line) : (s.maskLine l).listed = s.listed := by unfold State.maskLine; split <;> rfl
@[simp] theorem State.maskLine_entryListed (l : Line) : (s.maskLine l).entryListed = s.entryListed := by unfold State.maskLine; split <;> rfl
@[simp] theorem State.maskLine_readData (l : Line) : (s.maskLine l).readData = s.readData := by unfold State.maskLine; split <;> rfl
@[simp] theorem State.maskLine_sched (l : Line) : (s.maskLine l).sched = s.sched := by unfold State.maskLine; split <;> rfl
@[simp] theorem State.maskLine_tick (l : Line) : (s.maskLine l).tick = s.tick := by unfold State.maskLine; split <;> rfl

/-! UNMASK (R148) touches the mask registers only. -/

@[simp] theorem State.unmaskLine_cfg (l : Line) : (s.unmaskLine l).cfg = s.cfg := by unfold State.unmaskLine; split <;> rfl
@[simp] theorem State.unmaskLine_status (l : Line) : (s.unmaskLine l).status = s.status := by unfold State.unmaskLine; split <;> rfl
@[simp] theorem State.unmaskLine_cause (l : Line) : (s.unmaskLine l).cause = s.cause := by unfold State.unmaskLine; split <;> rfl
@[simp] theorem State.unmaskLine_owner (l : Line) : (s.unmaskLine l).owner = s.owner := by unfold State.unmaskLine; split <;> rfl
@[simp] theorem State.unmaskLine_bind (l : Line) : (s.unmaskLine l).bind = s.bind := by unfold State.unmaskLine; split <;> rfl
@[simp] theorem State.unmaskLine_bridges (l : Line) : (s.unmaskLine l).bridges = s.bridges := by unfold State.unmaskLine; split <;> rfl
@[simp] theorem State.unmaskLine_bq (l : Line) : (s.unmaskLine l).bq = s.bq := by unfold State.unmaskLine; split <;> rfl
@[simp] theorem State.unmaskLine_mbox (l : Line) : (s.unmaskLine l).mbox = s.mbox := by unfold State.unmaskLine; split <;> rfl
@[simp] theorem State.unmaskLine_disp (l : Line) : (s.unmaskLine l).disp = s.disp := by unfold State.unmaskLine; split <;> rfl
@[simp] theorem State.unmaskLine_send (l : Line) : (s.unmaskLine l).send = s.send := by unfold State.unmaskLine; split <;> rfl
@[simp] theorem State.unmaskLine_fault (l : Line) : (s.unmaskLine l).fault = s.fault := by unfold State.unmaskLine; split <;> rfl
@[simp] theorem State.unmaskLine_hist (l : Line) : (s.unmaskLine l).hist = s.hist := by unfold State.unmaskLine; split <;> rfl
@[simp] theorem State.unmaskLine_prog (l : Line) : (s.unmaskLine l).prog = s.prog := by unfold State.unmaskLine; split <;> rfl
@[simp] theorem State.unmaskLine_index (l : Line) : (s.unmaskLine l).index = s.index := by unfold State.unmaskLine; split <;> rfl
@[simp] theorem State.unmaskLine_self (l : Line) : (s.unmaskLine l).self = s.self := by unfold State.unmaskLine; split <;> rfl
@[simp] theorem State.unmaskLine_draw (l : Line) : (s.unmaskLine l).draw = s.draw := by unfold State.unmaskLine; split <;> rfl
@[simp] theorem State.unmaskLine_listed (l : Line) : (s.unmaskLine l).listed = s.listed := by unfold State.unmaskLine; split <;> rfl
@[simp] theorem State.unmaskLine_entryListed (l : Line) : (s.unmaskLine l).entryListed = s.entryListed := by unfold State.unmaskLine; split <;> rfl
@[simp] theorem State.unmaskLine_readData (l : Line) : (s.unmaskLine l).readData = s.readData := by unfold State.unmaskLine; split <;> rfl
@[simp] theorem State.unmaskLine_sched (l : Line) : (s.unmaskLine l).sched = s.sched := by unfold State.unmaskLine; split <;> rfl
@[simp] theorem State.unmaskLine_tick (l : Line) : (s.unmaskLine l).tick = s.tick := by unfold State.unmaskLine; split <;> rfl

/-! ACK (R144) touches the status register only. -/

@[simp] theorem State.ackLine_cfg (l : Line) : (s.ackLine l).cfg = s.cfg := rfl
@[simp] theorem State.ackLine_mask (l : Line) : (s.ackLine l).mask = s.mask := rfl
@[simp] theorem State.ackLine_cause (l : Line) : (s.ackLine l).cause = s.cause := rfl
@[simp] theorem State.ackLine_owner (l : Line) : (s.ackLine l).owner = s.owner := rfl
@[simp] theorem State.ackLine_bind (l : Line) : (s.ackLine l).bind = s.bind := rfl
@[simp] theorem State.ackLine_bridges (l : Line) : (s.ackLine l).bridges = s.bridges := rfl
@[simp] theorem State.ackLine_bq (l : Line) : (s.ackLine l).bq = s.bq := rfl
@[simp] theorem State.ackLine_mbox (l : Line) : (s.ackLine l).mbox = s.mbox := rfl
@[simp] theorem State.ackLine_disp (l : Line) : (s.ackLine l).disp = s.disp := rfl
@[simp] theorem State.ackLine_send (l : Line) : (s.ackLine l).send = s.send := rfl
@[simp] theorem State.ackLine_fault (l : Line) : (s.ackLine l).fault = s.fault := rfl
@[simp] theorem State.ackLine_hist (l : Line) : (s.ackLine l).hist = s.hist := rfl
@[simp] theorem State.ackLine_prog (l : Line) : (s.ackLine l).prog = s.prog := rfl
@[simp] theorem State.ackLine_index (l : Line) : (s.ackLine l).index = s.index := rfl
@[simp] theorem State.ackLine_self (l : Line) : (s.ackLine l).self = s.self := rfl
@[simp] theorem State.ackLine_draw (l : Line) : (s.ackLine l).draw = s.draw := rfl
@[simp] theorem State.ackLine_listed (l : Line) : (s.ackLine l).listed = s.listed := rfl
@[simp] theorem State.ackLine_entryListed (l : Line) : (s.ackLine l).entryListed = s.entryListed := rfl
@[simp] theorem State.ackLine_readData (l : Line) : (s.ackLine l).readData = s.readData := rfl
@[simp] theorem State.ackLine_sched (l : Line) : (s.ackLine l).sched = s.sched := rfl
@[simp] theorem State.ackLine_tick (l : Line) : (s.ackLine l).tick = s.tick := rfl

/-! MASK_ACK (R150) touches the mask registers and the status register only. -/

@[simp] theorem State.maskAckLine_cfg (l : Line) : (s.maskAckLine l).cfg = s.cfg := by unfold State.maskAckLine; simp
@[simp] theorem State.maskAckLine_cause (l : Line) : (s.maskAckLine l).cause = s.cause := by unfold State.maskAckLine; simp
@[simp] theorem State.maskAckLine_owner (l : Line) : (s.maskAckLine l).owner = s.owner := by unfold State.maskAckLine; simp
@[simp] theorem State.maskAckLine_bind (l : Line) : (s.maskAckLine l).bind = s.bind := by unfold State.maskAckLine; simp
@[simp] theorem State.maskAckLine_bridges (l : Line) : (s.maskAckLine l).bridges = s.bridges := by unfold State.maskAckLine; simp
@[simp] theorem State.maskAckLine_bq (l : Line) : (s.maskAckLine l).bq = s.bq := by unfold State.maskAckLine; simp
@[simp] theorem State.maskAckLine_mbox (l : Line) : (s.maskAckLine l).mbox = s.mbox := by unfold State.maskAckLine; simp
@[simp] theorem State.maskAckLine_disp (l : Line) : (s.maskAckLine l).disp = s.disp := by unfold State.maskAckLine; simp
@[simp] theorem State.maskAckLine_send (l : Line) : (s.maskAckLine l).send = s.send := by unfold State.maskAckLine; simp
@[simp] theorem State.maskAckLine_fault (l : Line) : (s.maskAckLine l).fault = s.fault := by unfold State.maskAckLine; simp
@[simp] theorem State.maskAckLine_hist (l : Line) : (s.maskAckLine l).hist = s.hist := by unfold State.maskAckLine; simp
@[simp] theorem State.maskAckLine_prog (l : Line) : (s.maskAckLine l).prog = s.prog := by unfold State.maskAckLine; simp
@[simp] theorem State.maskAckLine_index (l : Line) : (s.maskAckLine l).index = s.index := by unfold State.maskAckLine; simp
@[simp] theorem State.maskAckLine_self (l : Line) : (s.maskAckLine l).self = s.self := by unfold State.maskAckLine; simp
@[simp] theorem State.maskAckLine_draw (l : Line) : (s.maskAckLine l).draw = s.draw := by unfold State.maskAckLine; simp
@[simp] theorem State.maskAckLine_listed (l : Line) : (s.maskAckLine l).listed = s.listed := by unfold State.maskAckLine; simp
@[simp] theorem State.maskAckLine_entryListed (l : Line) : (s.maskAckLine l).entryListed = s.entryListed := by unfold State.maskAckLine; simp
@[simp] theorem State.maskAckLine_readData (l : Line) : (s.maskAckLine l).readData = s.readData := by unfold State.maskAckLine; simp
@[simp] theorem State.maskAckLine_sched (l : Line) : (s.maskAckLine l).sched = s.sched := by unfold State.maskAckLine; simp
@[simp] theorem State.maskAckLine_tick (l : Line) : (s.maskAckLine l).tick = s.tick := by unfold State.maskAckLine; simp

/-! The bridge part of STARTUP (R140) touches the bridges and `BQ` only. -/

@[simp] theorem State.startBridge_cfg (l : Line) : (s.startBridge l).cfg = s.cfg := by unfold State.startBridge; split <;> rfl
@[simp] theorem State.startBridge_status (l : Line) : (s.startBridge l).status = s.status := by unfold State.startBridge; split <;> rfl
@[simp] theorem State.startBridge_mask (l : Line) : (s.startBridge l).mask = s.mask := by unfold State.startBridge; split <;> rfl
@[simp] theorem State.startBridge_cause (l : Line) : (s.startBridge l).cause = s.cause := by unfold State.startBridge; split <;> rfl
@[simp] theorem State.startBridge_owner (l : Line) : (s.startBridge l).owner = s.owner := by unfold State.startBridge; split <;> rfl
@[simp] theorem State.startBridge_bind (l : Line) : (s.startBridge l).bind = s.bind := by unfold State.startBridge; split <;> rfl
@[simp] theorem State.startBridge_mbox (l : Line) : (s.startBridge l).mbox = s.mbox := by unfold State.startBridge; split <;> rfl
@[simp] theorem State.startBridge_disp (l : Line) : (s.startBridge l).disp = s.disp := by unfold State.startBridge; split <;> rfl
@[simp] theorem State.startBridge_send (l : Line) : (s.startBridge l).send = s.send := by unfold State.startBridge; split <;> rfl
@[simp] theorem State.startBridge_fault (l : Line) : (s.startBridge l).fault = s.fault := by unfold State.startBridge; split <;> rfl
@[simp] theorem State.startBridge_hist (l : Line) : (s.startBridge l).hist = s.hist := by unfold State.startBridge; split <;> rfl
@[simp] theorem State.startBridge_prog (l : Line) : (s.startBridge l).prog = s.prog := by unfold State.startBridge; split <;> rfl
@[simp] theorem State.startBridge_index (l : Line) : (s.startBridge l).index = s.index := by unfold State.startBridge; split <;> rfl
@[simp] theorem State.startBridge_self (l : Line) : (s.startBridge l).self = s.self := by unfold State.startBridge; split <;> rfl
@[simp] theorem State.startBridge_draw (l : Line) : (s.startBridge l).draw = s.draw := by unfold State.startBridge; split <;> rfl
@[simp] theorem State.startBridge_listed (l : Line) : (s.startBridge l).listed = s.listed := by unfold State.startBridge; split <;> rfl
@[simp] theorem State.startBridge_entryListed (l : Line) : (s.startBridge l).entryListed = s.entryListed := by unfold State.startBridge; split <;> rfl
@[simp] theorem State.startBridge_readData (l : Line) : (s.startBridge l).readData = s.readData := by unfold State.startBridge; split <;> rfl
@[simp] theorem State.startBridge_sched (l : Line) : (s.startBridge l).sched = s.sched := by unfold State.startBridge; split <;> rfl
@[simp] theorem State.startBridge_tick (l : Line) : (s.startBridge l).tick = s.tick := by unfold State.startBridge; split <;> rfl

/-- The bridge part of STARTUP of an unbound line (R140). -/
theorem State.startBridge_unbound {l : Line} (h : s.bind[l] = none) :
    s.startBridge l = s := by
  simp only [State.startBridge, h]

/-- The bridge part of STARTUP of a bound line (R140). -/
theorem State.startBridge_bound {l : Line} {b : BridgeSlot} (h : s.bind[l] = some b) :
    s.startBridge l = (((s.post ⟨b.bridge, b.slot, .enSet⟩).post ⟨b.bridge, b.slot, .modeSet⟩).post
      ⟨b.bridge, b.slot, .route (cfgRouteVal s.cfg b.bridge b.slot l)⟩).flush := by
  simp only [State.startBridge, h]

/-! STARTUP (R140) touches the owner, the status register, the mask registers, the bridges and `BQ` only. -/

@[simp] theorem State.startLine_cfg (l : Line) : (s.startLine l).cfg = s.cfg := by unfold State.startLine; simp
@[simp] theorem State.startLine_cause (l : Line) : (s.startLine l).cause = s.cause := by unfold State.startLine; simp
@[simp] theorem State.startLine_bind (l : Line) : (s.startLine l).bind = s.bind := by unfold State.startLine; simp
@[simp] theorem State.startLine_mbox (l : Line) : (s.startLine l).mbox = s.mbox := by unfold State.startLine; simp
@[simp] theorem State.startLine_disp (l : Line) : (s.startLine l).disp = s.disp := by unfold State.startLine; simp
@[simp] theorem State.startLine_send (l : Line) : (s.startLine l).send = s.send := by unfold State.startLine; simp
@[simp] theorem State.startLine_fault (l : Line) : (s.startLine l).fault = s.fault := by unfold State.startLine; simp
@[simp] theorem State.startLine_hist (l : Line) : (s.startLine l).hist = s.hist := by unfold State.startLine; simp
@[simp] theorem State.startLine_prog (l : Line) : (s.startLine l).prog = s.prog := by unfold State.startLine; simp
@[simp] theorem State.startLine_index (l : Line) : (s.startLine l).index = s.index := by unfold State.startLine; simp
@[simp] theorem State.startLine_self (l : Line) : (s.startLine l).self = s.self := by unfold State.startLine; simp
@[simp] theorem State.startLine_draw (l : Line) : (s.startLine l).draw = s.draw := by unfold State.startLine; simp
@[simp] theorem State.startLine_listed (l : Line) : (s.startLine l).listed = s.listed := by unfold State.startLine; simp
@[simp] theorem State.startLine_entryListed (l : Line) : (s.startLine l).entryListed = s.entryListed := by unfold State.startLine; simp
@[simp] theorem State.startLine_readData (l : Line) : (s.startLine l).readData = s.readData := by unfold State.startLine; simp
@[simp] theorem State.startLine_sched (l : Line) : (s.startLine l).sched = s.sched := by unfold State.startLine; simp
@[simp] theorem State.startLine_tick (l : Line) : (s.startLine l).tick = s.tick := by unfold State.startLine; simp

/-! The bridge part of SHUTDOWN (R142) touches `BQ` only. -/

@[simp] theorem State.stopBridge_cfg (l : Line) : (s.stopBridge l).cfg = s.cfg := by unfold State.stopBridge; split <;> rfl
@[simp] theorem State.stopBridge_status (l : Line) : (s.stopBridge l).status = s.status := by unfold State.stopBridge; split <;> rfl
@[simp] theorem State.stopBridge_mask (l : Line) : (s.stopBridge l).mask = s.mask := by unfold State.stopBridge; split <;> rfl
@[simp] theorem State.stopBridge_cause (l : Line) : (s.stopBridge l).cause = s.cause := by unfold State.stopBridge; split <;> rfl
@[simp] theorem State.stopBridge_owner (l : Line) : (s.stopBridge l).owner = s.owner := by unfold State.stopBridge; split <;> rfl
@[simp] theorem State.stopBridge_bind (l : Line) : (s.stopBridge l).bind = s.bind := by unfold State.stopBridge; split <;> rfl
@[simp] theorem State.stopBridge_bridges (l : Line) : (s.stopBridge l).bridges = s.bridges := by unfold State.stopBridge; split <;> rfl
@[simp] theorem State.stopBridge_mbox (l : Line) : (s.stopBridge l).mbox = s.mbox := by unfold State.stopBridge; split <;> rfl
@[simp] theorem State.stopBridge_disp (l : Line) : (s.stopBridge l).disp = s.disp := by unfold State.stopBridge; split <;> rfl
@[simp] theorem State.stopBridge_send (l : Line) : (s.stopBridge l).send = s.send := by unfold State.stopBridge; split <;> rfl
@[simp] theorem State.stopBridge_fault (l : Line) : (s.stopBridge l).fault = s.fault := by unfold State.stopBridge; split <;> rfl
@[simp] theorem State.stopBridge_hist (l : Line) : (s.stopBridge l).hist = s.hist := by unfold State.stopBridge; split <;> rfl
@[simp] theorem State.stopBridge_prog (l : Line) : (s.stopBridge l).prog = s.prog := by unfold State.stopBridge; split <;> rfl
@[simp] theorem State.stopBridge_index (l : Line) : (s.stopBridge l).index = s.index := by unfold State.stopBridge; split <;> rfl
@[simp] theorem State.stopBridge_self (l : Line) : (s.stopBridge l).self = s.self := by unfold State.stopBridge; split <;> rfl
@[simp] theorem State.stopBridge_draw (l : Line) : (s.stopBridge l).draw = s.draw := by unfold State.stopBridge; split <;> rfl
@[simp] theorem State.stopBridge_listed (l : Line) : (s.stopBridge l).listed = s.listed := by unfold State.stopBridge; split <;> rfl
@[simp] theorem State.stopBridge_entryListed (l : Line) : (s.stopBridge l).entryListed = s.entryListed := by unfold State.stopBridge; split <;> rfl
@[simp] theorem State.stopBridge_readData (l : Line) : (s.stopBridge l).readData = s.readData := by unfold State.stopBridge; split <;> rfl
@[simp] theorem State.stopBridge_sched (l : Line) : (s.stopBridge l).sched = s.sched := by unfold State.stopBridge; split <;> rfl
@[simp] theorem State.stopBridge_tick (l : Line) : (s.stopBridge l).tick = s.tick := by unfold State.stopBridge; split <;> rfl

/-! SHUTDOWN (R142) touches the mask registers, `BQ` and the owner only. -/

@[simp] theorem State.stopLine_cfg (l : Line) : (s.stopLine l).cfg = s.cfg := by unfold State.stopLine; simp
@[simp] theorem State.stopLine_status (l : Line) : (s.stopLine l).status = s.status := by unfold State.stopLine; simp
@[simp] theorem State.stopLine_cause (l : Line) : (s.stopLine l).cause = s.cause := by unfold State.stopLine; simp
@[simp] theorem State.stopLine_bind (l : Line) : (s.stopLine l).bind = s.bind := by unfold State.stopLine; simp
@[simp] theorem State.stopLine_bridges (l : Line) : (s.stopLine l).bridges = s.bridges := by unfold State.stopLine; simp
@[simp] theorem State.stopLine_mbox (l : Line) : (s.stopLine l).mbox = s.mbox := by unfold State.stopLine; simp
@[simp] theorem State.stopLine_disp (l : Line) : (s.stopLine l).disp = s.disp := by unfold State.stopLine; simp
@[simp] theorem State.stopLine_send (l : Line) : (s.stopLine l).send = s.send := by unfold State.stopLine; simp
@[simp] theorem State.stopLine_fault (l : Line) : (s.stopLine l).fault = s.fault := by unfold State.stopLine; simp
@[simp] theorem State.stopLine_hist (l : Line) : (s.stopLine l).hist = s.hist := by unfold State.stopLine; simp
@[simp] theorem State.stopLine_prog (l : Line) : (s.stopLine l).prog = s.prog := by unfold State.stopLine; simp
@[simp] theorem State.stopLine_index (l : Line) : (s.stopLine l).index = s.index := by unfold State.stopLine; simp
@[simp] theorem State.stopLine_self (l : Line) : (s.stopLine l).self = s.self := by unfold State.stopLine; simp
@[simp] theorem State.stopLine_draw (l : Line) : (s.stopLine l).draw = s.draw := by unfold State.stopLine; simp
@[simp] theorem State.stopLine_listed (l : Line) : (s.stopLine l).listed = s.listed := by unfold State.stopLine; simp
@[simp] theorem State.stopLine_entryListed (l : Line) : (s.stopLine l).entryListed = s.entryListed := by unfold State.stopLine; simp
@[simp] theorem State.stopLine_readData (l : Line) : (s.stopLine l).readData = s.readData := by unfold State.stopLine; simp
@[simp] theorem State.stopLine_sched (l : Line) : (s.stopLine l).sched = s.sched := by unfold State.stopLine; simp
@[simp] theorem State.stopLine_tick (l : Line) : (s.stopLine l).tick = s.tick := by unfold State.stopLine; simp

/-! IPI_RECEIVE (R204) touches the mailbox, the status register and `HIST` only. -/

@[simp] theorem State.receive_cfg : s.receive.cfg = s.cfg := rfl
@[simp] theorem State.receive_mask : s.receive.mask = s.mask := rfl
@[simp] theorem State.receive_cause : s.receive.cause = s.cause := rfl
@[simp] theorem State.receive_owner : s.receive.owner = s.owner := rfl
@[simp] theorem State.receive_bind : s.receive.bind = s.bind := rfl
@[simp] theorem State.receive_bridges : s.receive.bridges = s.bridges := rfl
@[simp] theorem State.receive_bq : s.receive.bq = s.bq := rfl
@[simp] theorem State.receive_disp : s.receive.disp = s.disp := rfl
@[simp] theorem State.receive_send : s.receive.send = s.send := rfl
@[simp] theorem State.receive_fault : s.receive.fault = s.fault := rfl
@[simp] theorem State.receive_prog : s.receive.prog = s.prog := rfl
@[simp] theorem State.receive_index : s.receive.index = s.index := rfl
@[simp] theorem State.receive_self : s.receive.self = s.self := rfl
@[simp] theorem State.receive_draw : s.receive.draw = s.draw := rfl
@[simp] theorem State.receive_listed : s.receive.listed = s.listed := rfl
@[simp] theorem State.receive_entryListed : s.receive.entryListed = s.entryListed := rfl
@[simp] theorem State.receive_readData : s.receive.readData = s.readData := rfl
@[simp] theorem State.receive_sched : s.receive.sched = s.sched := rfl
@[simp] theorem State.receive_tick : s.receive.tick = s.tick := rfl

/-! The end of an entry (R231) touches `DISP`, `HIST` and the program index only. -/

@[simp] theorem State.endEntry_cfg (b : Bool) : (s.endEntry b).cfg = s.cfg := by unfold State.endEntry; split <;> rfl
@[simp] theorem State.endEntry_status (b : Bool) : (s.endEntry b).status = s.status := by unfold State.endEntry; split <;> rfl
@[simp] theorem State.endEntry_mask (b : Bool) : (s.endEntry b).mask = s.mask := by unfold State.endEntry; split <;> rfl
@[simp] theorem State.endEntry_cause (b : Bool) : (s.endEntry b).cause = s.cause := by unfold State.endEntry; split <;> rfl
@[simp] theorem State.endEntry_owner (b : Bool) : (s.endEntry b).owner = s.owner := by unfold State.endEntry; split <;> rfl
@[simp] theorem State.endEntry_bind (b : Bool) : (s.endEntry b).bind = s.bind := by unfold State.endEntry; split <;> rfl
@[simp] theorem State.endEntry_bridges (b : Bool) : (s.endEntry b).bridges = s.bridges := by unfold State.endEntry; split <;> rfl
@[simp] theorem State.endEntry_bq (b : Bool) : (s.endEntry b).bq = s.bq := by unfold State.endEntry; split <;> rfl
@[simp] theorem State.endEntry_mbox (b : Bool) : (s.endEntry b).mbox = s.mbox := by unfold State.endEntry; split <;> rfl
@[simp] theorem State.endEntry_send (b : Bool) : (s.endEntry b).send = s.send := by unfold State.endEntry; split <;> rfl
@[simp] theorem State.endEntry_fault (b : Bool) : (s.endEntry b).fault = s.fault := by unfold State.endEntry; split <;> rfl
@[simp] theorem State.endEntry_prog (b : Bool) : (s.endEntry b).prog = s.prog := by unfold State.endEntry; split <;> rfl
@[simp] theorem State.endEntry_self (b : Bool) : (s.endEntry b).self = s.self := by unfold State.endEntry; split <;> rfl
@[simp] theorem State.endEntry_draw (b : Bool) : (s.endEntry b).draw = s.draw := by unfold State.endEntry; split <;> rfl
@[simp] theorem State.endEntry_listed (b : Bool) : (s.endEntry b).listed = s.listed := by unfold State.endEntry; split <;> rfl
@[simp] theorem State.endEntry_entryListed (b : Bool) : (s.endEntry b).entryListed = s.entryListed := by unfold State.endEntry; split <;> rfl
@[simp] theorem State.endEntry_readData (b : Bool) : (s.endEntry b).readData = s.readData := by unfold State.endEntry; split <;> rfl
@[simp] theorem State.endEntry_sched (b : Bool) : (s.endEntry b).sched = s.sched := by unfold State.endEntry; split <;> rfl
@[simp] theorem State.endEntry_tick (b : Bool) : (s.endEntry b).tick = s.tick := by unfold State.endEntry; split <;> rfl

/-! The bridge agent (R66) touches the bridges and `BQ` only. -/

@[simp] theorem State.bridgeStep_cfg : s.bridgeStep.cfg = s.cfg := by unfold State.bridgeStep; split <;> rfl
@[simp] theorem State.bridgeStep_status : s.bridgeStep.status = s.status := by unfold State.bridgeStep; split <;> rfl
@[simp] theorem State.bridgeStep_mask : s.bridgeStep.mask = s.mask := by unfold State.bridgeStep; split <;> rfl
@[simp] theorem State.bridgeStep_cause : s.bridgeStep.cause = s.cause := by unfold State.bridgeStep; split <;> rfl
@[simp] theorem State.bridgeStep_owner : s.bridgeStep.owner = s.owner := by unfold State.bridgeStep; split <;> rfl
@[simp] theorem State.bridgeStep_bind : s.bridgeStep.bind = s.bind := by unfold State.bridgeStep; split <;> rfl
@[simp] theorem State.bridgeStep_mbox : s.bridgeStep.mbox = s.mbox := by unfold State.bridgeStep; split <;> rfl
@[simp] theorem State.bridgeStep_disp : s.bridgeStep.disp = s.disp := by unfold State.bridgeStep; split <;> rfl
@[simp] theorem State.bridgeStep_send : s.bridgeStep.send = s.send := by unfold State.bridgeStep; split <;> rfl
@[simp] theorem State.bridgeStep_fault : s.bridgeStep.fault = s.fault := by unfold State.bridgeStep; split <;> rfl
@[simp] theorem State.bridgeStep_hist : s.bridgeStep.hist = s.hist := by unfold State.bridgeStep; split <;> rfl
@[simp] theorem State.bridgeStep_prog : s.bridgeStep.prog = s.prog := by unfold State.bridgeStep; split <;> rfl
@[simp] theorem State.bridgeStep_index : s.bridgeStep.index = s.index := by unfold State.bridgeStep; split <;> rfl
@[simp] theorem State.bridgeStep_self : s.bridgeStep.self = s.self := by unfold State.bridgeStep; split <;> rfl
@[simp] theorem State.bridgeStep_draw : s.bridgeStep.draw = s.draw := by unfold State.bridgeStep; split <;> rfl
@[simp] theorem State.bridgeStep_listed : s.bridgeStep.listed = s.listed := by unfold State.bridgeStep; split <;> rfl
@[simp] theorem State.bridgeStep_entryListed : s.bridgeStep.entryListed = s.entryListed := by unfold State.bridgeStep; split <;> rfl
@[simp] theorem State.bridgeStep_readData : s.bridgeStep.readData = s.readData := by unfold State.bridgeStep; split <;> rfl
@[simp] theorem State.bridgeStep_sched : s.bridgeStep.sched = s.sched := by unfold State.bridgeStep; split <;> rfl
@[simp] theorem State.bridgeStep_tick : s.bridgeStep.tick = s.tick := by unfold State.bridgeStep; split <;> rfl

/-! An assertion of the device agent (R226) touches the status register only. -/

@[simp] theorem State.devAssert_cfg (l : Line) : (s.devAssert l).cfg = s.cfg := by unfold State.devAssert; split <;> rfl
@[simp] theorem State.devAssert_mask (l : Line) : (s.devAssert l).mask = s.mask := by unfold State.devAssert; split <;> rfl
@[simp] theorem State.devAssert_cause (l : Line) : (s.devAssert l).cause = s.cause := by unfold State.devAssert; split <;> rfl
@[simp] theorem State.devAssert_owner (l : Line) : (s.devAssert l).owner = s.owner := by unfold State.devAssert; split <;> rfl
@[simp] theorem State.devAssert_bind (l : Line) : (s.devAssert l).bind = s.bind := by unfold State.devAssert; split <;> rfl
@[simp] theorem State.devAssert_bridges (l : Line) : (s.devAssert l).bridges = s.bridges := by unfold State.devAssert; split <;> rfl
@[simp] theorem State.devAssert_bq (l : Line) : (s.devAssert l).bq = s.bq := by unfold State.devAssert; split <;> rfl
@[simp] theorem State.devAssert_mbox (l : Line) : (s.devAssert l).mbox = s.mbox := by unfold State.devAssert; split <;> rfl
@[simp] theorem State.devAssert_disp (l : Line) : (s.devAssert l).disp = s.disp := by unfold State.devAssert; split <;> rfl
@[simp] theorem State.devAssert_send (l : Line) : (s.devAssert l).send = s.send := by unfold State.devAssert; split <;> rfl
@[simp] theorem State.devAssert_fault (l : Line) : (s.devAssert l).fault = s.fault := by unfold State.devAssert; split <;> rfl
@[simp] theorem State.devAssert_hist (l : Line) : (s.devAssert l).hist = s.hist := by unfold State.devAssert; split <;> rfl
@[simp] theorem State.devAssert_prog (l : Line) : (s.devAssert l).prog = s.prog := by unfold State.devAssert; split <;> rfl
@[simp] theorem State.devAssert_index (l : Line) : (s.devAssert l).index = s.index := by unfold State.devAssert; split <;> rfl
@[simp] theorem State.devAssert_self (l : Line) : (s.devAssert l).self = s.self := by unfold State.devAssert; split <;> rfl
@[simp] theorem State.devAssert_draw (l : Line) : (s.devAssert l).draw = s.draw := by unfold State.devAssert; split <;> rfl
@[simp] theorem State.devAssert_listed (l : Line) : (s.devAssert l).listed = s.listed := by unfold State.devAssert; split <;> rfl
@[simp] theorem State.devAssert_entryListed (l : Line) : (s.devAssert l).entryListed = s.entryListed := by unfold State.devAssert; split <;> rfl
@[simp] theorem State.devAssert_readData (l : Line) : (s.devAssert l).readData = s.readData := by unfold State.devAssert; split <;> rfl
@[simp] theorem State.devAssert_sched (l : Line) : (s.devAssert l).sched = s.sched := by unfold State.devAssert; split <;> rfl
@[simp] theorem State.devAssert_tick (l : Line) : (s.devAssert l).tick = s.tick := by unfold State.devAssert; split <;> rfl

/-! Taking the next schedule entry touches the schedule only. -/

@[simp] theorem State.popScheduled_cfg : s.popScheduled.cfg = s.cfg := by unfold State.popScheduled; split <;> rfl
@[simp] theorem State.popScheduled_status : s.popScheduled.status = s.status := by unfold State.popScheduled; split <;> rfl
@[simp] theorem State.popScheduled_mask : s.popScheduled.mask = s.mask := by unfold State.popScheduled; split <;> rfl
@[simp] theorem State.popScheduled_cause : s.popScheduled.cause = s.cause := by unfold State.popScheduled; split <;> rfl
@[simp] theorem State.popScheduled_owner : s.popScheduled.owner = s.owner := by unfold State.popScheduled; split <;> rfl
@[simp] theorem State.popScheduled_bind : s.popScheduled.bind = s.bind := by unfold State.popScheduled; split <;> rfl
@[simp] theorem State.popScheduled_bridges : s.popScheduled.bridges = s.bridges := by unfold State.popScheduled; split <;> rfl
@[simp] theorem State.popScheduled_bq : s.popScheduled.bq = s.bq := by unfold State.popScheduled; split <;> rfl
@[simp] theorem State.popScheduled_mbox : s.popScheduled.mbox = s.mbox := by unfold State.popScheduled; split <;> rfl
@[simp] theorem State.popScheduled_disp : s.popScheduled.disp = s.disp := by unfold State.popScheduled; split <;> rfl
@[simp] theorem State.popScheduled_send : s.popScheduled.send = s.send := by unfold State.popScheduled; split <;> rfl
@[simp] theorem State.popScheduled_fault : s.popScheduled.fault = s.fault := by unfold State.popScheduled; split <;> rfl
@[simp] theorem State.popScheduled_hist : s.popScheduled.hist = s.hist := by unfold State.popScheduled; split <;> rfl
@[simp] theorem State.popScheduled_prog : s.popScheduled.prog = s.prog := by unfold State.popScheduled; split <;> rfl
@[simp] theorem State.popScheduled_index : s.popScheduled.index = s.index := by unfold State.popScheduled; split <;> rfl
@[simp] theorem State.popScheduled_self : s.popScheduled.self = s.self := by unfold State.popScheduled; split <;> rfl
@[simp] theorem State.popScheduled_draw : s.popScheduled.draw = s.draw := by unfold State.popScheduled; split <;> rfl
@[simp] theorem State.popScheduled_listed : s.popScheduled.listed = s.listed := by unfold State.popScheduled; split <;> rfl
@[simp] theorem State.popScheduled_entryListed : s.popScheduled.entryListed = s.entryListed := by unfold State.popScheduled; split <;> rfl
@[simp] theorem State.popScheduled_readData : s.popScheduled.readData = s.readData := by unfold State.popScheduled; split <;> rfl

/-! ### What the changed fields hold -/

/-- MASK clears the line's bit in its owner's mask register and in no other (R146, R123). -/
theorem State.maskLine_bit (l i : Line) (k : CpuId) :
    ((s.maskLine l).mask[k]).getLsbD i.val
      = (s.mask[k].getLsbD i.val && !(decide (i = l) && decide (s.owner[l] = some k))) := by
  unfold State.maskLine
  split
  · next c hc =>
    by_cases hk : c = k
    · subst hk; simp only [State.setMask_mask, Fin.getElem_fin, getElem_set_slot, if_true, getLsbD_clearLine]
      simp at hc; simp [hc]
    · simp at hc; simp [hk, hc]
  · next hc => simp at hc; simp [hc]

/-- UNMASK sets the line's bit in its owner's mask register and in no other (R148, R123). -/
theorem State.unmaskLine_bit (l i : Line) (k : CpuId) :
    ((s.unmaskLine l).mask[k]).getLsbD i.val
      = (s.mask[k].getLsbD i.val || (decide (i = l) && decide (s.owner[l] = some k))) := by
  unfold State.unmaskLine
  split
  · next c hc =>
    by_cases hk : c = k
    · subst hk; simp only [State.setMask_mask, Fin.getElem_fin, getElem_set_slot, if_true, getLsbD_setLine]
      simp at hc; simp [hc]
    · simp at hc; simp [hk, hc]
  · next hc => simp at hc; simp [hc]

/-- ACK clears the line's pending bit and no other (R144). -/
theorem State.ackLine_bit (l i : Line) :
    (s.ackLine l).status.getLsbD i.val = (s.status.getLsbD i.val && decide (i ≠ l)) :=
  getLsbD_clearLine _ _ _

@[simp] theorem State.maskAckLine_mask (l : Line) : (s.maskAckLine l).mask = (s.maskLine l).mask := rfl

@[simp] theorem State.maskAckLine_status (l : Line) : (s.maskAckLine l).status = (s.ackLine l).status := by
  simp [State.maskAckLine, State.ackLine]

@[simp] theorem State.startLine_owner (l : Line) :
    (s.startLine l).owner = s.owner.set l (some (ownerChoice s.cfg l)) := by
  simp [State.startLine]

@[simp] theorem State.startLine_status (l : Line) : (s.startLine l).status = (s.ackLine l).status := by
  simp [State.startLine, State.ackLine]

@[simp] theorem State.startLine_mask (l : Line) :
    (s.startLine l).mask
      = s.mask.set (ownerChoice s.cfg l) (s.mask[ownerChoice s.cfg l] ||| bit l.val) := by
  simp [State.startLine]

/-- STARTUP of an unbound line posts and performs nothing (R140). -/
theorem State.startLine_unbound {l : Line} (h : s.bind[l] = none) :
    (s.startLine l).bridges = s.bridges ∧ (s.startLine l).bq = s.bq := by
  unfold State.startLine
  rw [State.startBridge_unbound _ (by simpa using h)]
  simp

/-- STARTUP of a bound line leaves `BQ` empty: every earlier posted write is performed, then its own three
(R140, R67). -/
theorem State.startLine_bound {l : Line} {b : BridgeSlot} (h : s.bind[l] = some b) :
    (s.startLine l).bridges = (s.bq ++ ([⟨b.bridge, b.slot, .enSet⟩, ⟨b.bridge, b.slot, .modeSet⟩,
      ⟨b.bridge, b.slot, .route (cfgRouteVal s.cfg b.bridge b.slot l)⟩] : List Posted)).foldl performPosted s.bridges
    ∧ (s.startLine l).bq = [] := by
  unfold State.startLine
  rw [State.startBridge_bound _ (b := b) (by simpa using h)]
  simp

@[simp] theorem State.stopLine_owner (l : Line) : (s.stopLine l).owner = s.owner.set l none := by
  simp [State.stopLine]

@[simp] theorem State.stopLine_mask (l : Line) : (s.stopLine l).mask = (s.maskLine l).mask := by
  simp [State.stopLine]

/-- A table whose every slot is written reads as written. -/
@[simp] theorem State.initController_owner_slot (l : Line) : s.initController.owner[l.val] = none := by
  simp

@[simp] theorem State.initController_mask_slot (k : CpuId) :
    s.initController.mask[k.val] = if k.val < s.cfg.ncpu then 0 else s.mask[k.val] := by
  simp

@[simp] theorem State.receive_mbox : s.receive.mbox = s.mbox.set s.self 0 := rfl

@[simp] theorem State.receive_hist :
    s.receive.hist = s.hist ++ (actionsOf s.cfg s.mbox[s.self]).map (Event.ipiAction s.self) := rfl

@[simp] theorem State.receive_status :
    s.receive.status = s.status &&& ~~~(bit (cfgIpiLine s.cfg s.self).val) := rfl

@[simp] theorem State.endEntry_disp (b : Bool) : (s.endEntry b).disp = s.disp.set s.self .idle := by
  unfold State.endEntry; split <;> rfl

@[simp] theorem State.endEntry_hist (b : Bool) :
    (s.endEntry b).hist = s.hist ++ [.resp s.self .irqEntry .unit] := by
  unfold State.endEntry; split <;> rfl

@[simp] theorem State.endEntry_index (b : Bool) :
    (s.endEntry b).index = if b then s.index.set s.self (s.index[s.self] + 1) else s.index := by
  unfold State.endEntry; split <;> simp_all

/-- The range check of `L` passes for a line (R81). -/
@[simp] theorem withLine_line (l : Line) (k : Line → State) : withLine l.val s k = k l := by
  simp [withLine, l.isLt]

/-- The range check of `L` faults beyond the lines (R81). -/
theorem withLine_of_le {l : Nat} (h : 64 ≤ l) (k : Line → State) : withLine l s k = s.raise .irqRange := by
  simp [withLine, Nat.not_lt.2 h]

/-- A range check has two outcomes (R81). -/
theorem withLine_cases (l : Nat) (k : Line → State) :
    (64 ≤ l ∧ withLine l s k = s.raise .irqRange) ∨ ∃ L : Line, L.val = l ∧ withLine l s k = k L := by
  by_cases h : l < 64
  · exact .inr ⟨⟨l, h⟩, rfl, by simp [withLine, h]⟩
  · exact .inl ⟨Nat.not_lt.1 h, withLine_of_le s (Nat.not_lt.1 h) k⟩

/-- A range check has two outcomes (R81). -/
theorem withCpu_cases (c : CpuId) (k : State) :
    (s.cfg.ncpu ≤ c.val ∧ withCpu c s k = s.raise .cpuRange) ∨ (c.val < s.cfg.ncpu ∧ withCpu c s k = k) := by
  by_cases h : c.val < s.cfg.ncpu
  · exact .inr ⟨h, by simp [withCpu, h]⟩
  · exact .inl ⟨Nat.not_lt.1 h, by simp [withCpu, h]⟩

end

/-- A posted write leaves the number of bridges. -/
@[simp] theorem length_performPosted (bs : List Bridge) (p : Posted) :
    (performPosted bs p).length = bs.length := by
  unfold performPosted; split <;> simp

/-- The parts of a well-formed configuration (R7). -/
theorem cfgWellFormed_ncpu {g : Cfg} (h : cfgWellFormed g = true) : 2 ≤ g.ncpu ∧ g.ncpu ≤ 8 := by
  simp only [cfgWellFormed, decide_eq_true_eq] at h
  exact h.1

/-- The owner STARTUP chooses exists (R156, R7). -/
theorem ownerChoice_lt {g : Cfg} (h : cfgWellFormed g = true) (l : Line) : (ownerChoice g l).val < g.ncpu := by
  have h2 := (cfgWellFormed_ncpu h).1
  simp only [cfgWellFormed, decide_eq_true_eq, List.all_eq_true] at h
  have hp := h.2.2.2.1
  unfold ownerChoice cfgPin
  cases hf : g.pin.find? (fun p => p.1 == l) with
  | none => simp; omega
  | some p => exact hp p (List.mem_of_find?_eq_some hf)

/-- STARTUP sets the line's bit in its owner's mask register and in no other (R140). -/
theorem State.startLine_bit (s : State) (l i : Line) (k : CpuId) :
    ((s.startLine l).mask[k]).getLsbD i.val
      = (s.mask[k].getLsbD i.val || (decide (i = l) && decide (ownerChoice s.cfg l = k))) := by
  rw [State.startLine_mask]
  by_cases h : ownerChoice s.cfg l = k
  · subst h; simp only [Fin.getElem_fin, getElem_set_slot, if_true, getLsbD_setLine]; simp
  · simp [h]

end Sys2Proof.Machine
end

