-- ==== Sys2Proof/Laws/Bridges.lean ====
section
/-! SUPPORT. Posted bridge writes and the shape of the bridges (10_state.md R29; 20_memory.md R66, R67). -/

namespace Sys2Proof.Machine

/-- Posted writes leave the number of bridges. -/
theorem foldl_length (ps : List Posted) (bs : List Bridge) : (ps.foldl performPosted bs).length = bs.length := by
  induction ps generalizing bs with
  | nil => rfl
  | cons p ps ih => simp [ih]
/-- A posted write keeps the shape of a bridge (R29). -/
theorem perform_shaped {n : Nat} {b : Bridge} {p : Posted} (h : b.shaped n) (hp : p.slot < n)
    (hn : n ≤ 64) : (b.perform p.slot p.write).shaped n := by
  obtain ⟨h1, h2⟩ := h
  have hb : ∀ i, n ≤ i → (bit p.slot).getLsbD i = false := by
    intro i hi
    have := getLsbD_bit ⟨p.slot, by omega⟩ i
    rw [this]; simp; omega
  unfold Bridge.shaped Bridge.perform
  cases p.write <;> simp only [] <;> refine ⟨by simpa using h1, fun i hi => ?_⟩ <;> have := h2 i hi <;> simp [this, hb i hi]
/-- A posted write keeps the shape of every bridge (R29). -/
theorem performPosted_shaped {n : Nat} {bs : List Bridge} {p : Posted} (h : ∀ b ∈ bs, b.shaped n)
    (hp : p.slot < n) (hn : n ≤ 64) : ∀ b ∈ performPosted bs p, b.shaped n := by
  unfold performPosted
  split
  · next br hbr =>
    intro b hb
    rcases List.mem_or_eq_of_mem_set hb with h1 | rfl
    · exact h b h1
    · exact perform_shaped (h br (List.mem_of_getElem? hbr)) hp hn
  · exact h
/-- A flush keeps the shape of every bridge (R67, R29). -/
theorem foldl_shaped {n : Nat} (hn : n ≤ 64) (ps : List Posted) (bs : List Bridge)
    (h : ∀ b ∈ bs, b.shaped n) (hp : ∀ p ∈ ps, p.slot < n) : ∀ b ∈ ps.foldl performPosted bs, b.shaped n := by
  induction ps generalizing bs with
  | nil => exact h
  | cons p ps ih => exact ih _ (performPosted_shaped h (hp p (by simp)) hn) (fun q hq => hp q (by simp [hq]))

end Sys2Proof.Machine
end

