-- ==== Sys2Proof/Laws/Encoding.lean ====
section
/-! SUPPORT. The command word and its fields (30_encoding.md R80, R84): what packing writes, reading finds. -/

namespace Sys2Proof

/-- Every operation code fits its five bits. -/
theorem opc_lt (op : Op) : op.row.opc < 32 := by cases op <;> decide

/-- A row is found under its operation code (R84). -/
theorem find_row (op : Op) : opcodeMap.find? (fun r => r.opc == op.row.opc) = some op.row := by
  cases op <;> decide

/-- No row is found under a code that no command has (R85). -/
theorem find_none_iff (n : Nat) :
    opcodeMap.find? (fun r => r.opc == n) = none ↔ ∀ op : Op, op.row.opc ≠ n := by
  rw [List.find?_eq_none]
  constructor
  · intro h op
    have := h op.row (List.mem_map.2 ⟨op, by cases op <;> decide, rfl⟩)
    simpa using this
  · intro h r hr
    obtain ⟨op, _, rfl⟩ := List.mem_map.1 hr
    simpa using h op

/-- A command's name is that of the row it is built from. -/
theorem build_op (op : Op) (f : Fields) : (op.build f).op = op := by cases op <;> rfl

/-- The fields of a well-formed command fit their bits (R80). -/
theorem wellFormed_fields {i : Instr} (h : i.wellFormed = true) :
    i.fields.b < 256 ∧ i.fields.slot < 256 ∧ i.fields.l < 256 := by
  cases i <;> simp [Instr.wellFormed, Instr.fields, fitsByte] at * <;> omega

/-- The number a packed word is. -/
theorem packWord_toNat {opc : Nat} {f : Fields} (h1 : opc < 32) (h2 : f.b < 256) (h3 : f.slot < 256)
    (h4 : f.l < 256) : (packWord opc f).toNat
      = 0x8000000 * opc + 0x1000000 * f.c.val + 0x10000 * f.b + 0x100 * f.slot + f.l := by
  have := f.c.isLt
  simp [packWord]
  omega

/-- The fields read from a packed word are those packed. -/
theorem fieldsOf_packWord {opc : Nat} {f : Fields} (h1 : opc < 32) (h2 : f.b < 256) (h3 : f.slot < 256)
    (h4 : f.l < 256) : fieldsOf (packWord opc f) f.d = f := by
  have := f.c.isLt
  have e := packWord_toNat h1 h2 h3 h4
  obtain ⟨c, b, sl, l, d⟩ := f
  simp only at *
  simp only [fieldsOf, e, Fields.mk.injEq, Fin.ext_iff, Fin.val_ofNat]
  refine ⟨?_, ?_, ?_, ?_, trivial⟩ <;> omega

/-- The operation code read from a packed word is the one packed. -/
theorem opcField_packWord {opc : Nat} {f : Fields} (h1 : opc < 32) (h2 : f.b < 256) (h3 : f.slot < 256)
    (h4 : f.l < 256) : opcField (packWord opc f) = opc := by
  have := f.c.isLt
  have e := packWord_toNat h1 h2 h3 h4
  simp only [opcField, e]
  omega

/-- Packing the fields of a word gives the word back. -/
theorem packWord_fieldsOf (w : BitVec 32) (d : Word) : packWord (opcField w) (fieldsOf w d) = w := by
  apply BitVec.eq_of_toNat_eq
  have := w.isLt
  simp [packWord, opcField, fieldsOf, Fin.ofNat]
  omega

end Sys2Proof
end

