-- ==== Sys2Proof/Laws/Step.lean ====
section
/-! SUPPORT. What a step is, said once: in general, for a scheduled choice, and for each way a CPU agent can step. -/

namespace Sys2Proof.Machine

/-- A step that gives a next state runs the next schedule entry, under a well-formed configuration and
no fault (R7, R221). -/
theorem step_next {s t : State} (h : step s = .next t) :
    cfgWellFormed s.cfg = true ∧ s.fault = none ∧ scheduledStep s.nextScheduled s.popScheduled = .next t := by
  unfold step at h
  split at h
  · next hc =>
    split at h
    · cases h
    · next hf => exact ⟨hc, hf, h⟩
  · cases h

/-- A run of one more step. -/
theorem core_run_succ (M : Host.Core) (n : Nat) (s : M.State) :
    M.run (n + 1) s = (match M.step s with
      | .next t => M.run n t
      | .fault f => .fault f
      | .refused r => .refused r) := rfl

/-- A run goes on from the state a step leaves. -/
theorem run_of_step {n : Nat} {s t : State} (h : step s = .next t) :
    Host.Core.run Sys2Proof.core (n + 1) s = Host.Core.run Sys2Proof.core n t := by
  refine (core_run_succ Sys2Proof.core n s).trans ?_
  have hs : Sys2Proof.core.step s = .next t := h
  rw [hs]

/-- The step of a scheduled choice. -/
theorem step_of_takes {s : State} {ch : Choice} {rest : List Scheduled} (h : s.Takes ch rest) :
    step s = choiceStep ch { s with sched := rest } := by
  unfold step
  rw [if_pos h.config]
  have hf := h.unfaulted
  split
  · next code hc => rw [hf] at hc; cases hc
  · simp only [State.nextScheduled, State.popScheduled, h.scheduled, scheduledStep]

/-- The step of a CPU that exists. -/
theorem step_of_cpuTakes {s : State} {c : CpuId} {x : Draw} {rest : List Scheduled}
    (h : s.CpuTakes c x rest) : step s = cpuStep c x { s with sched := rest } := by
  rw [step_of_takes h.takes]
  simp [choiceStep, State.cpuExists, h.present]

/-- A CPU whose dispatcher is busy takes a dispatcher step (R172). -/
theorem step_of_busy {s : State} {c : CpuId} {x : Draw} {rest : List Scheduled}
    (h : s.CpuTakes c x rest) (hd : s.disp[c] ≠ .idle) :
    step s = .next (s.issued c x true rest).dispatchStep := by
  rw [step_of_cpuTakes h]
  unfold cpuStep
  split
  · next he => exact absurd he hd
  · rfl

/-- A CPU with a send in flight takes its second phase (R201). -/
theorem step_of_asserting {s : State} {c t : CpuId} {x : Draw} {rest : List Scheduled}
    (h : s.CpuTakes c x rest) (hd : s.disp[c] = .idle) (hs : s.send[c] = .asserting t) :
    step s = .next ((s.issued c x true rest).assertIpi t) := by
  rw [step_of_cpuTakes h]
  simp only [Fin.getElem_fin] at hd hs
  simp [cpuStep, hd, hs, State.issued, State.begin]

/-- A CPU with neither runs the item at its program index (R37). -/
theorem step_of_fetches {s : State} {c : CpuId} {x : Draw} {rest : List Scheduled} {it : Item}
    (h : s.Fetches c x rest it) : step s = runItem it (s.issued c x true rest) := by
  rw [step_of_cpuTakes h.cpu]
  have hd := h.dispIdle
  have hs := h.sendIdle
  have hi := h.item
  simp only [Fin.getElem_fin] at hd hs hi
  simp [cpuStep, hd, hs, hi, State.issued, State.begin]

section
variable (s : State) (c : CpuId) (x : Draw) (b : Bool) (rest : List Scheduled)

@[simp] theorem State.issued_cfg : (s.issued c x b rest).cfg = s.cfg := rfl
@[simp] theorem State.issued_status : (s.issued c x b rest).status = s.status := rfl
@[simp] theorem State.issued_mask : (s.issued c x b rest).mask = s.mask := rfl
@[simp] theorem State.issued_cause : (s.issued c x b rest).cause = s.cause := rfl
@[simp] theorem State.issued_owner : (s.issued c x b rest).owner = s.owner := rfl
@[simp] theorem State.issued_bind : (s.issued c x b rest).bind = s.bind := rfl
@[simp] theorem State.issued_bridges : (s.issued c x b rest).bridges = s.bridges := rfl
@[simp] theorem State.issued_bq : (s.issued c x b rest).bq = s.bq := rfl
@[simp] theorem State.issued_mbox : (s.issued c x b rest).mbox = s.mbox := rfl
@[simp] theorem State.issued_disp : (s.issued c x b rest).disp = s.disp := rfl
@[simp] theorem State.issued_send : (s.issued c x b rest).send = s.send := rfl
@[simp] theorem State.issued_fault : (s.issued c x b rest).fault = s.fault := rfl
@[simp] theorem State.issued_hist : (s.issued c x b rest).hist = s.hist := rfl
@[simp] theorem State.issued_prog : (s.issued c x b rest).prog = s.prog := rfl
@[simp] theorem State.issued_index : (s.issued c x b rest).index = s.index := rfl
@[simp] theorem State.issued_self : (s.issued c x b rest).self = c := rfl
@[simp] theorem State.issued_draw : (s.issued c x b rest).draw = x := rfl
@[simp] theorem State.issued_listed : (s.issued c x b rest).listed = b := rfl
@[simp] theorem State.issued_entryListed : (s.issued c x b rest).entryListed = s.entryListed := rfl
@[simp] theorem State.issued_readData : (s.issued c x b rest).readData = s.readData := rfl
@[simp] theorem State.issued_sched : (s.issued c x b rest).sched = rest := rfl
@[simp] theorem State.issued_tick : (s.issued c x b rest).tick = s.tick := rfl

end

end Sys2Proof.Machine
end

