-- ==== Sys2Proof/Laws/FrontEnd.lean ====
section
/-! SUPPORT. The laws of the request outputs and the summary, of the dispatcher step, and of the action handlers, each said once. -/

namespace Sys2Proof.Machine

/-! ### Requests and the summary -/

theorem lineRequested_iff (s : State) (k : CpuId) (m : Word) :
    LineRequested s k m ↔ (pend s k &&& m) ≠ 0 := by
  rw [Ne, eq_zero_iff_no_bit]
  constructor
  · rintro ⟨l, h1, h2, h3⟩ h
    have := h l
    simp [pend] at this
    simp at h1 h2 h3
    simp_all
  · intro h
    push Not at h
    obtain ⟨l, hl⟩ := h
    refine ⟨l, ?_⟩
    simp [pend] at hl ⊢
    tauto

theorem five_bits : ∀ a b c d e : Bool,
    (BitVec.ofBool a ++ BitVec.ofBool b ++ BitVec.ofBool c ++ BitVec.ofBool d ++ BitVec.ofBool e).getLsbD 4 = a
    ∧ (BitVec.ofBool a ++ BitVec.ofBool b ++ BitVec.ofBool c ++ BitVec.ofBool d ++ BitVec.ofBool e).getLsbD 3 = b
    ∧ (BitVec.ofBool a ++ BitVec.ofBool b ++ BitVec.ofBool c ++ BitVec.ofBool d ++ BitVec.ofBool e).getLsbD 2 = c
    ∧ (BitVec.ofBool a ++ BitVec.ofBool b ++ BitVec.ofBool c ++ BitVec.ofBool d ++ BitVec.ofBool e).getLsbD 1 = d
    ∧ (BitVec.ofBool a ++ BitVec.ofBool b ++ BitVec.ofBool c ++ BitVec.ofBool d ++ BitVec.ofBool e).getLsbD 0 = e := by
  decide

/-- The bits of the summary (R33). -/
theorem sum5_bits (s : State) (k : CpuId) (x : Draw) :
    (sum5 s k x).getLsbD 4 = (x.tpend && x.ie.getLsbD 4)
    ∧ (sum5 s k x).getLsbD 3 = (rawErr s k && x.ie.getLsbD 3)
    ∧ (sum5 s k x).getLsbD 2 = (rawHcnt s k && x.ie.getLsbD 2)
    ∧ (sum5 s k x).getLsbD 1 = (rawGenHi s k && x.ie.getLsbD 1)
    ∧ (sum5 s k x).getLsbD 0 = (rawGenLo s k && x.ie.getLsbD 0) :=
  five_bits ..

/-- A band is raised when its bit of the summary is set (R33, R171). -/
theorem bandRaised_iff (s : State) (k : CpuId) (x : Draw) (b : Band) :
    BandRaised s k x b ↔ (sum5 s k x).getLsbD (5 - b.priority) = true := by
  obtain ⟨h4, h3, h2, h1, h0⟩ := sum5_bits s k x
  cases b <;> simp only [BandRaised, Band.priority, Nat.reduceSub, h4, h3, h2, h1, h0, lineRequested_iff,
    rawErr, rawHcnt, rawGenHi, rawGenLo, Bool.and_eq_true, bne_iff_ne]

/-- The band an entry selects is raised (R171). -/
theorem bandOf_raised {s : State} {c : CpuId} {x : Draw} {b : Band} (h : bandOf (sum5 s c x) = some b) :
    BandRaised s c x b := by
  rw [bandRaised_iff]
  unfold bandOf at h
  (repeat' split at h) <;> cases h <;> assumption

/-- A summary with a raised band selects one (R170). -/
theorem bandOf_of_raised {s : State} {c : CpuId} {x : Draw} {b : Band} (h : BandRaised s c x b) :
    ∃ b', bandOf (sum5 s c x) = some b' := by
  rw [bandRaised_iff] at h
  unfold bandOf
  cases b <;> simp only [Band.priority, Nat.reduceSub] at h <;> simp only [h, if_true] <;> (repeat' split) <;> exact ⟨_, rfl⟩

/-- A non-zero summary has a raised band (R33). -/
theorem raised_of_sum5 {s : State} {c : CpuId} {x : Draw} (h : sum5 s c x ≠ 0) : ∃ b, BandRaised s c x b := by
  by_contra hn
  push Not at hn
  have h4 := hn .cpucnt
  have h3 := hn .err
  have h2 := hn .hcnt
  have h1 := hn .genHi
  have h0 := hn .genLo
  simp only [bandRaised_iff, Band.priority, Nat.reduceSub, Bool.not_eq_true] at h4 h3 h2 h1 h0
  refine h (BitVec.eq_of_getLsbD_eq fun i hi => ?_)
  obtain rfl | rfl | rfl | rfl | rfl : i = 0 ∨ i = 1 ∨ i = 2 ∨ i = 3 ∨ i = 4 := by omega
  all_goals first | exact h4 | exact h3 | exact h2 | exact h1 | exact h0

theorem errMask_bit : ∀ i : Line, errMask.getLsbD i.val = decide (51 ≤ i.val) := by decide

/-- The top set bit is `msb`. -/
theorem msb_of_top {v : Word} {l : Line} (h1 : v.getLsbD l.val = true)
    (h2 : ∀ i : Line, l < i → v.getLsbD i.val = false) : msb v = some l := by
  cases hm : msb v with
  | none => rw [msb_eq_none] at hm; subst hm; simp at h1
  | some m =>
    obtain ⟨a, b⟩ := msb_spec hm
    rcases lt_trichotomy l m with h | h | h
    · rw [h2 m h] at a; simp at a
    · rw [h]
    · rw [b l.val h] at h1; simp at h1

theorem isIpi_iff {g : Cfg} (hg : cfgWellFormed g = true) (l : Line) :
    cfgIsIpiLine g l = true ↔ ∃ c : CpuId, c.val < g.ncpu ∧ cfgIpiLine g c = l := by
  simp only [cfgWellFormed, decide_eq_true_eq] at hg
  have h8 := hg.1.2
  have hl := hg.2.2.2.2.1.1
  unfold cfgIsIpiLine cfgIpiLine
  rw [List.take_of_length_le (by omega), List.contains_iff_mem, List.mem_iff_getElem]
  constructor
  · rintro ⟨n, hn, rfl⟩; exact ⟨⟨n, by omega⟩, by simpa using (by omega : n < g.ncpu), by simp [hn]⟩
  · rintro ⟨c', hc, rfl⟩; exact ⟨c'.val, by omega, by simp [hl, hc]⟩

/-! ### The dispatcher step -/

/-- The end of an entry, in the terms of Safety. -/
theorem finish_eq (t : State) : t.finishEntry = State.entryEnded t.self t := by
  unfold State.finishEntry State.entryEnded
  apply State.ext <;> simp

/-- What no dispatcher step changes. -/
theorem dispatch_frame (s : State) :
    s.dispatchStep.fault = s.fault ∧ s.dispatchStep.prog = s.prog ∧ s.dispatchStep.send = s.send
    ∧ s.dispatchStep.cfg = s.cfg ∧ s.dispatchStep.self = s.self ∧ s.dispatchStep.bind = s.bind
    ∧ s.dispatchStep.owner = s.owner ∧ s.dispatchStep.cause = s.cause
    ∧ s.dispatchStep.bridges = s.bridges ∧ s.dispatchStep.bq = s.bq ∧ s.dispatchStep.sched = s.sched := by
  unfold State.dispatchStep
  split <;> (try exact ⟨rfl, rfl, rfl, rfl, rfl, rfl, rfl, rfl, rfl, rfl, rfl⟩)
  all_goals first
    | (simp [dispCpucnt, dispHcnt, dispErrRead, dispErrAck, dispSnapFirst, State.finishEntry]; done)
    | (unfold dispSnapSecond; split <;> simp [State.finishEntry]; done)
    | (unfold dispScan; split <;> simp [State.finishEntry]; done)
    | (unfold dispFlowPre; split <;> simp; done)
    | (unfold dispFlowHandler; split <;> simp; done)
    | (unfold dispFlowPost; simp; done)

/-- A dispatcher step moves a program index only by ending the entry. -/
theorem dispatch_index (s : State) : s.dispatchStep.disp[s.self] = .idle ∨ s.dispatchStep.index = s.index := by
  unfold State.dispatchStep
  split <;> (try exact .inr rfl)
  all_goals first
    | (left; simp [dispCpucnt, dispHcnt, dispErrRead, dispErrAck, dispSnapFirst, State.finishEntry]; done)
    | (unfold dispSnapSecond; split <;> simp [State.finishEntry]; done)
    | (unfold dispScan; split <;> simp [State.finishEntry]; done)
    | (unfold dispFlowPre; split <;> simp; done)
    | (unfold dispFlowHandler; split <;> simp; done)
    | (unfold dispFlowPost; simp; done)

/-- A dispatcher step of another CPU leaves the mask register and the mailbox of a CPU that owns no line. -/
theorem dispatch_absent (s : State) (c : CpuId) (hc : s.self ≠ c) (ho : ∀ l : Line, s.owner[l] ≠ some c) :
    s.dispatchStep.mask[c] = s.mask[c] ∧ s.dispatchStep.mbox[c] = s.mbox[c] := by
  have hm : ∀ l, (s.maskLine l).mask[c] = s.mask[c] := by
    intro l; apply word_ext; intro i; rw [State.maskLine_bit]; simp [ho l]
    have := ho l; simp at this; simp [this]
  have hu : ∀ l, (s.unmaskLine l).mask[c] = s.mask[c] := by
    intro l; apply word_ext; intro i; rw [State.unmaskLine_bit]; simp [ho l]
    have := ho l; simp at this; simp [this]
  unfold State.dispatchStep
  split
  · exact ⟨rfl, rfl⟩
  · simp [dispCpucnt, State.finishEntry]
  · simp [dispErrRead]
  · simp [dispHcnt, State.finishEntry]
  · simp [dispSnapFirst]
  · simp [dispSnapFirst]
  · simp [dispErrAck, State.finishEntry]
  · unfold dispSnapSecond; split <;> simp [State.finishEntry]
  · unfold dispScan; split <;> simp [State.finishEntry]
  · unfold dispFlowPre; split
    · refine ⟨?_, by simp⟩; exact hm _
    · simp
  · unfold dispFlowHandler; split <;> simp [hc]
  · unfold dispFlowPost; refine ⟨hu _, by simp⟩

/-- A dispatcher step leaves the dispatcher and the program index of other CPUs (R236). -/
theorem dispatch_private (s : State) (c : CpuId) (h : s.self ≠ c) :
    s.dispatchStep.disp[c] = s.disp[c] ∧ s.dispatchStep.index[c] = s.index[c] := by
  have he : ∀ t : State, t.self = s.self → t.disp = s.disp → t.index = s.index →
      t.finishEntry.disp[c] = s.disp[c] ∧ t.finishEntry.index[c] = s.index[c] := by
    intro t h1 h2 h3; simp only [State.finishEntry, State.endEntry_disp, State.endEntry_index, h1, h2, h3]
    constructor
    · simp [h]
    · split <;> simp [h]
  unfold State.dispatchStep
  split
  · exact ⟨rfl, rfl⟩
  · exact he _ rfl rfl rfl
  · simp [dispErrRead, h]
  · exact he _ rfl rfl rfl
  · simp [dispSnapFirst, h]
  · simp [dispSnapFirst, h]
  · exact he _ rfl rfl rfl
  · unfold dispSnapSecond; split
    · exact he _ rfl rfl rfl
    · simp [h]
  · unfold dispScan; split
    · exact he _ rfl rfl rfl
    · simp [h]
  · unfold dispFlowPre; split <;> simp [h]
  · unfold dispFlowHandler; split <;> simp [h]
  · unfold dispFlowPost; simp [h]

/-- A dispatcher step only appends to `HIST`. -/
theorem dispatch_hist (s : State) : s.hist <+: s.dispatchStep.hist := by
  unfold State.dispatchStep
  split <;> (try exact List.prefix_rfl)
  all_goals first
    | (simp [dispCpucnt, dispHcnt, dispErrRead, dispErrAck, dispSnapFirst, State.finishEntry]; done)
    | (unfold dispSnapSecond; split <;> simp [State.finishEntry]; done)
    | (unfold dispScan; split <;> simp [State.finishEntry]; done)
    | (unfold dispFlowPre; split <;> simp; done)
    | (unfold dispFlowPost; simp; done)
    | (unfold dispFlowHandler; split <;> simp; done)

/-! ### Action handlers -/

theorem filterMap_two {α β : Type} [DecidableEq α] (f : α → Option β) (a b : α) (x y : β) (hab : a ≠ b)
    (ha : f a = some x) (hb : f b = some y) (hn : ∀ k, k ≠ a → k ≠ b → f k = none)
    (r : α → α → Prop) (hr : ∀ u v, r u v → ¬ r v u) (hrab : r a b) :
    ∀ xs : List α, xs.Pairwise r → xs.filterMap f = (if a ∈ xs then [x] else []) ++ (if b ∈ xs then [y] else [])
  | [], _ => by simp
  | k :: ks, hp => by
    have hirr : ∀ u, ¬ r u u := fun u h => hr u u h h
    have ih := filterMap_two f a b x y hab ha hb hn r hr hrab ks (List.pairwise_cons.1 hp).2
    have hk := (List.pairwise_cons.1 hp).1
    by_cases h1 : k = a
    · subst h1
      have : k ∉ ks := fun hm => hirr _ (hk _ hm)
      simp [ha, ih, this, hab.symm]
    · by_cases h2 : k = b
      · subst h2
        have hb' : k ∉ ks := fun hm => hirr _ (hk _ hm)
        have ha' : a ∉ ks := fun hm => hr _ _ hrab (hk _ hm)
        simp [hb, ih, hb', ha', hab]
      · simp [hn k h1 h2, ih, Ne.symm h1, Ne.symm h2]

theorem bitsAsc_ascends (v : Word) : (bitsAsc v).Pairwise (fun a b => a.val < b.val) := by
  unfold bitsAsc
  rw [List.pairwise_reverse]
  exact bitsDesc_descends v

/-- The handlers of an action set: reschedule, then call (R204, R205). -/
theorem actionsOf_eq (g : Cfg) (a : Word) (h : g.callBit ≠ reschedBit) :
    actionsOf g a
      = (if a.getLsbD 0 then [.resched] else []) ++ (if a.getLsbD g.callBit.val then [.call] else []) := by
  have h0 : reschedBit.val < g.callBit.val := by
    have : g.callBit.val ≠ 0 := fun e => h (Fin.ext e)
    show (0 : Nat) < _
    omega
  unfold actionsOf
  rw [filterMap_two (actionOf g) reschedBit g.callBit .resched .call h.symm (by simp [actionOf])
    (by simp [actionOf, h]) (fun k h1 h2 => by simp [actionOf, h1, h2]) (fun a b => a.val < b.val)
    (fun u v h => by omega) h0 _ (bitsAsc_ascends a)]
  simp [bitsAsc, reschedBit]

/-- The lines dispatched in two histories joined. -/
theorem dispatchesOf_append (c : CpuId) (h1 h2 : List Event) :
    dispatchesOf c (h1 ++ h2) = dispatchesOf c h1 ++ dispatchesOf c h2 := by
  simp [dispatchesOf]

/-- An `IpiAction` event dispatches no line. -/
theorem dispatchesOf_actions (c d : CpuId) (g : Cfg) (a : Word) : dispatchesOf c ((actionsOf g a).map (Event.ipiAction d)) = [] := by
  simp [dispatchesOf, List.filterMap_map, Function.comp_def, dispatchedBy]

/-- A dispatcher step leaves a mailbox, or drains the CPU's own and emits its actions (R181, R204). -/
theorem dispatch_mbox (s : State) (c : CpuId) :
    s.dispatchStep.mbox[c] = s.mbox[c]
    ∨ (c = s.self ∧ s.dispatchStep.mbox[c] = 0
      ∧ s.dispatchStep.hist = s.hist ++ (actionsOf s.cfg s.mbox[c]).map (Event.ipiAction c)) := by
  unfold State.dispatchStep
  split <;> (try exact .inl rfl)
  all_goals first
    | (left; simp [dispCpucnt, dispHcnt, dispErrRead, dispErrAck, dispSnapFirst, State.finishEntry]; done)
    | (left; unfold dispSnapSecond; split <;> simp [State.finishEntry]; done)
    | (left; unfold dispScan; split <;> simp [State.finishEntry]; done)
    | (left; unfold dispFlowPre; split <;> simp; done)
    | (left; unfold dispFlowPost; simp; done)
    | skip
  unfold dispFlowHandler; split
  · by_cases hc : c = s.self
    · subst hc; right; simp
    · left; simp; intro h; exact absurd h.symm hc 
  · left; simp

/-! ### Decode faults -/

/-- The decoder raises only the two decode faults (R82). -/
theorem decode_error {w : BitVec 32} {d : Word} {code : FaultCode} (h : decode w d = .error code) :
    code = .illegalOpcode ∨ code = .reservedField := by
  unfold decode at h
  split at h
  · cases h; simp
  · split at h <;> cases h
    simp

end Sys2Proof.Machine
end

