-- ==== Sys2Proof/Laws/Exec.lean ====
section
/-! SUPPORT. Everything a command can do, said once (`exec_cases`), and everything a step can do, said once (`step_cases`). A proof about all commands or all steps cites these and unfolds nothing. -/

namespace Sys2Proof.Machine

/-- What a command can leave: a fault with nothing else, or its own effect. -/
inductive ExecOf (s : State) : Instr → State → Prop
  | raised (i : Instr) (code : FaultCode) (hm : code ≠ .mmioAccess) (ho : code ≠ .illegalOpcode)
      (hr : code ≠ .reservedField) (hn : code = .nestedEntry → i = .irqEntry ∧ s.disp[s.self] ≠ .idle)
      (hi : i = .irqEntry → code = .nestedEntry) :
      ExecOf s i (s.raise code)
  | rdStatus : ExecOf s .rdStatus (s.complete .rdStatus (.word s.status))
  | wrSet (d : Word) : ExecOf s (.wrSet d) ((s.statusSet d).complete .wrSet .unit)
  | wrClear (d : Word) : ExecOf s (.wrClear d) ((s.statusClear d).complete .wrClear .unit)
  | rdMask (c : CpuId) (hc : c.val < s.cfg.ncpu) :
      ExecOf s (.rdMask c) (s.complete .rdMask (.word s.mask[c]))
  | wrMask (c : CpuId) (d : Word) (hc : c.val < s.cfg.ncpu) :
      ExecOf s (.wrMask c d) ((s.setMask c d).complete .wrMask .unit)
  | rdCause : ExecOf s .rdCause (s.complete .rdCause (.word s.cause))
  | assignRefused (l : Line) (c : CpuId) (hc : c.val < s.cfg.ncpu) (ho : s.owner[l] ≠ none) :
      ExecOf s (.assign l.val c) ((s.emit (.violation l)).complete .assign (.assigned false))
  | assigned (l : Line) (c : CpuId) (hc : c.val < s.cfg.ncpu) (ho : s.owner[l] = none) :
      ExecOf s (.assign l.val c) ((s.setOwner l (some c)).complete .assign (.assigned true))
  | release (l : Line) : ExecOf s (.release l.val) ((s.setOwner l none).complete .release .unit)
  | ownerOf (l : Line) : ExecOf s (.ownerOf l.val) (s.complete .ownerOf (.owner s.owner[l]))
  | bind (l : Line) (b slot : Nat) (hb : b < s.cfg.nbridge) (hs : slot < s.cfg.nslot) (h0 : s.bind[l] = none) :
      ExecOf s (.bind l.val b slot) ((s.setBind l (some ⟨b, slot⟩)).complete .bind .unit)
  | lookup (l : Line) : ExecOf s (.lookup l.val) (s.complete .lookup (.binding s.bind[l]))
  | startupBusy (l : Line) (ho : s.owner[l] ≠ none) :
      ExecOf s (.startup l.val) ((s.emit (.violation l)).complete .startup (.startup .busy))
  | started (l : Line) (ho : s.owner[l] = none) :
      ExecOf s (.startup l.val) ((s.startLine l).complete .startup (.startup .ok))
  | shutdown (l : Line) : ExecOf s (.shutdown l.val) ((s.stopLine l).complete .shutdown .unit)
  | ack (l : Line) : ExecOf s (.ack l.val) ((s.ackLine l).complete .ack .unit)
  | mask (l : Line) : ExecOf s (.mask l.val) ((s.maskLine l).complete .mask .unit)
  | unmask (l : Line) : ExecOf s (.unmask l.val) ((s.unmaskLine l).complete .unmask .unit)
  | maskAck (l : Line) : ExecOf s (.maskAck l.val) ((s.maskAckLine l).complete .maskAck .unit)
  | ctrlInit : ExecOf s .ctrlInit (s.initController.complete .ctrlInit .unit)
  | cpuReset (c : CpuId) (hc : c.val < s.cfg.ncpu) :
      ExecOf s (.cpuReset c) ((s.setMask c 0).complete .cpuReset .unit)
  | entrySpurious (hd : s.disp[s.self] = .idle) (hb : bandOf (sum5 s s.self s.draw) = none) :
      ExecOf s .irqEntry ((s.emit (.spurious s.self)).endEntry s.listed)
  | entered (b : Band) (hd : s.disp[s.self] = .idle) (hb : bandOf (sum5 s s.self s.draw) = some b) :
      ExecOf s .irqEntry
        (((s.emit (.entry s.self b)).setDisp s.self (.band b)).setEntryListed s.self s.listed)
  | ipiSend (c : CpuId) (d : Word) (hc : c.val < s.cfg.ncpu) :
      ExecOf s (.ipiSend c d) ((s.setMbox c (s.mbox[c] ||| d)).setSend s.self (.asserting c))
  | ipiReceive : ExecOf s .ipiReceive (s.receive.complete .ipiReceive (.word s.mbox[s.self]))

theorem execOf_withLine {s : State} {i : Instr} {l : Nat} {k : Line → State} (hi : i ≠ .irqEntry)
    (h : ∀ L : Line, L.val = l → ExecOf s i (k L)) : ExecOf s i (withLine l s k) := by
  rcases withLine_cases s l k with ⟨_, e⟩ | ⟨L, hL, e⟩ <;> rw [e]
  · exact .raised i _ (by simp) (by simp) (by simp) (by simp) fun h => absurd h hi
  · exact h L hL

theorem execOf_withCpu {s : State} {i : Instr} {c : CpuId} {k : State} (hi : i ≠ .irqEntry)
    (h : c.val < s.cfg.ncpu → ExecOf s i k) : ExecOf s i (withCpu c s k) := by
  rcases withCpu_cases s c k with ⟨_, e⟩ | ⟨hc, e⟩ <;> rw [e]
  · exact .raised i _ (by simp) (by simp) (by simp) (by simp) fun h => absurd h hi
  · exact h hc

/-- Everything a command can do. -/
theorem exec_cases {i : Instr} {s t : State} (h : exec i s = .next t) : ExecOf s i t := by
  cases i <;> cases h
  case rdStatus => exact .rdStatus
  case wrSet => exact .wrSet _
  case wrClear => exact .wrClear _
  case rdMask => exact execOf_withCpu (by simp) fun hc => .rdMask _ hc
  case wrMask => exact execOf_withCpu (by simp) fun hc => .wrMask _ _ hc
  case rdCause => exact .rdCause
  case assign =>
    refine execOf_withLine (by simp) fun L hL => execOf_withCpu (by simp) fun hc => ?_
    subst hL
    split
    · next ho => exact .assignRefused L _ hc (by rw [ho]; simp)
    · next ho => exact .assigned L _ hc ho
  case release => exact execOf_withLine (by simp) fun L hL => by subst hL; exact .release L
  case ownerOf => exact execOf_withLine (by simp) fun L hL => by subst hL; exact .ownerOf L
  case bind =>
    refine execOf_withLine (by simp) fun L hL => ?_
    subst hL
    split
    · next hb =>
      split
      · next hs =>
        split
        · exact .raised _ _ (by simp) (by simp) (by simp) (by simp) (by simp)
        · next h0 => exact .bind L _ _ hb hs h0
      · exact .raised _ _ (by simp) (by simp) (by simp) (by simp) (by simp)
    · exact .raised _ _ (by simp) (by simp) (by simp) (by simp) (by simp)
  case lookup => exact execOf_withLine (by simp) fun L hL => by subst hL; exact .lookup L
  case startup =>
    refine execOf_withLine (by simp) fun L hL => ?_
    subst hL
    split
    · next ho => exact .startupBusy L (by rw [ho]; simp)
    · next ho => exact .started L ho
  case shutdown => exact execOf_withLine (by simp) fun L hL => by subst hL; exact .shutdown L
  case ack => exact execOf_withLine (by simp) fun L hL => by subst hL; exact .ack L
  case mask => exact execOf_withLine (by simp) fun L hL => by subst hL; exact .mask L
  case unmask => exact execOf_withLine (by simp) fun L hL => by subst hL; exact .unmask L
  case maskAck => exact execOf_withLine (by simp) fun L hL => by subst hL; exact .maskAck L
  case ctrlInit => exact .ctrlInit
  case cpuReset => exact execOf_withCpu (by simp) fun hc => .cpuReset _ hc
  case irqEntry =>
    split
    · next hd =>
      split
      · next hb => exact .entrySpurious hd hb
      · next b hb => exact .entered b hd hb
    · next hd => exact .raised _ _ (by simp) (by simp) (by simp) (fun _ => ⟨rfl, hd⟩) fun _ => rfl
  case ipiSend => exact execOf_withCpu (by simp) fun hc => .ipiSend _ _ hc
  case ipiReceive => exact .ipiReceive

/-! ### The commands on a line -/

section
variable (s : State) (l : Line)

theorem exec_release : exec (.release l.val) s = .next ((s.setOwner l none).complete .release .unit) := by
  simp only [exec, execRelease, withLine_line]

theorem exec_shutdown : exec (.shutdown l.val) s = .next ((s.stopLine l).complete .shutdown .unit) := by
  simp only [exec, execShutdown, withLine_line]

theorem exec_ack : exec (.ack l.val) s = .next ((s.ackLine l).complete .ack .unit) := by
  simp only [exec, execAck, withLine_line]

theorem exec_mask : exec (.mask l.val) s = .next ((s.maskLine l).complete .mask .unit) := by
  simp only [exec, execMask, withLine_line]

theorem exec_unmask : exec (.unmask l.val) s = .next ((s.unmaskLine l).complete .unmask .unit) := by
  simp only [exec, execUnmask, withLine_line]

theorem exec_maskAck : exec (.maskAck l.val) s = .next ((s.maskAckLine l).complete .maskAck .unit) := by
  simp only [exec, execMaskAck, withLine_line]

/-- STARTUP of an Idle line (R140). -/
theorem exec_startup_idle (h : s.owner[l] = none) :
    exec (.startup l.val) s = .next ((s.startLine l).complete .startup (.startup .ok)) := by
  simp only [exec, execStartup, withLine_line, h]

/-- STARTUP of an Active line (R141). -/
theorem exec_startup_active {c : CpuId} (h : s.owner[l] = some c) :
    exec (.startup l.val) s
      = .next ((s.emit (.violation l)).complete .startup (.startup .busy)) := by
  simp only [exec, execStartup, withLine_line, h]

end

/-- What an address-level access can do (R62, R64). -/
inductive AccessOf (s : State) : State → Prop
  | raised : AccessOf s (s.raise .mmioAccess)
  | read (v : Word) : AccessOf s (s.setReadData s.self v).advance
  | set (v : Word) : AccessOf s (s.statusSet v).advance
  | clear (v : Word) : AccessOf s (s.statusClear v).advance
  | mask (k : CpuId) (v : Word) (hk : k.val < s.cfg.ncpu) : AccessOf s (s.setMask k v).advance

/-- A mask register that an address names belongs to a CPU that exists (R64). -/
theorem regAt_mask {g : Cfg} {addr width : Nat} {k : CpuId} (h : regAt g addr width = some (.mask k)) :
    k.val < g.ncpu := by
  unfold regAt at h
  split at h
  · unfold regAtOffset at h
    split at h
    · cases h
    split at h
    · cases h
    split at h
    · cases h
    split at h
    · next j hj =>
      cases h
      have := List.find?_some hj
      simp only [Bool.and_eq_true, decide_eq_true_eq] at this
      exact this.1
    · split at h <;> cases h
  · cases h

theorem access_cases (s : State) (a : Access) : AccessOf s (s.access a) := by
  cases a with
  | read addr width =>
    simp only [State.access]
    split
    · exact .read _
    · exact .raised
  | write addr width v =>
    simp only [State.access]
    split
    · next t ht =>
      obtain ⟨r, hr, hw⟩ := Option.bind_eq_some_iff.1 ht
      cases r <;> simp only [State.regWrite, Option.some.injEq, reduceCtorEq] at hw
      · subst hw; exact .set v
      · subst hw; exact .clear v
      · subst hw; exact .mask _ v (regAt_mask hr)
    · exact .raised

/-- What a step can do; `u` is the state with the schedule's next entry used up. -/
inductive StepOf (s u : State) : State → Prop
  | stutter : StepOf s u u
  /-- the command that stands next in the program -/
  | command (c : CpuId) (x : Draw) (w : BitVec 32) (d : Word) (i : Instr) (t : State) (hc : c.val < s.cfg.ncpu)
      (hn : s.nextScheduled = .agent (.cpu c x)) (hd : s.disp[c] = .idle) (hs : s.send[c] = .idle)
      (hw : s.prog[c][s.index[c]]? = some (.command w d)) (hi : decode w d = .ok i)
      (h : ExecOf (u.begin c x true) i t) : StepOf s u t
  /-- an entry between two commands -/
  | entry (c : CpuId) (x : Draw) (t : State) (hc : c.val < s.cfg.ncpu)
      (hn : s.nextScheduled = .agent (.entry c x)) (hd : s.disp[c] = .idle)
      (h : ExecOf (u.begin c x false) .irqEntry t) : StepOf s u t
  /-- an entry that a harness delivers -/
  | deliver (c : CpuId) (x : Draw) (t : State) (hc : c.val < s.cfg.ncpu)
      (hn : s.nextScheduled = .deliver c x) (h : ExecOf (u.begin c x false) .irqEntry t) : StepOf s u t
  | assertIpi (c : CpuId) (x : Draw) (tgt : CpuId) (hc : c.val < s.cfg.ncpu)
      (hn : s.nextScheduled = .agent (.cpu c x)) (hd : s.disp[c] = .idle) (hs : s.send[c] = .asserting tgt) :
      StepOf s u ((u.begin c x true).assertIpi tgt)
  | dispatch (c : CpuId) (x : Draw) (hc : c.val < s.cfg.ncpu)
      (hn : s.nextScheduled = .agent (.cpu c x)) (hd : s.disp[c] ≠ .idle) :
      StepOf s u (u.begin c x true).dispatchStep
  | decodeFault (c : CpuId) (x : Draw) (w : BitVec 32) (d : Word) (code : FaultCode) (hc : c.val < s.cfg.ncpu)
      (hn : s.nextScheduled = .agent (.cpu c x)) (hd : s.disp[c] = .idle) (hs : s.send[c] = .idle)
      (hw : s.prog[c][s.index[c]]? = some (.command w d)) (hcode : code = .illegalOpcode ∨ code = .reservedField) :
      StepOf s u ((u.begin c x true).raise code)
  | access (c : CpuId) (x : Draw) (a : Access) (t : State) (hc : c.val < s.cfg.ncpu)
      (hn : s.nextScheduled = .agent (.cpu c x)) (hd : s.disp[c] = .idle) (hs : s.send[c] = .idle)
      (hw : s.prog[c][s.index[c]]? = some (.access a))
      (h : AccessOf (u.begin c x true) t) : StepOf s u t
  | devAssert (l : Line) (hn : s.nextScheduled = .agent (.devAssert l)) : StepOf s u (u.devAssert l)
  | devCause (v : Word) (hn : s.nextScheduled = .agent (.devCause v)) : StepOf s u (u.causeSet v)
  | bridge (hn : s.nextScheduled = .agent .bridge) : StepOf s u u.bridgeStep

/-- Everything a step can do. -/
theorem step_cases {s t : State} (h : step s = .next t) :
    cfgWellFormed s.cfg = true ∧ s.fault = none ∧ StepOf s s.popScheduled t := by
  obtain ⟨hg, hf, h⟩ := step_next h
  refine ⟨hg, hf, ?_⟩
  have hcfg : s.popScheduled.cfg = s.cfg := by simp
  have hdisp : s.popScheduled.disp = s.disp := by simp
  have hsend : s.popScheduled.send = s.send := by simp
  have hprog : s.popScheduled.prog = s.prog := by simp
  have hindex : s.popScheduled.index = s.index := by simp
  cases hn : s.nextScheduled with
  | deliver c x =>
    rw [hn] at h
    simp only [scheduledStep, State.cpuExists, hcfg, decide_eq_true_eq] at h
    split at h
    · next hc => exact .deliver c x t hc hn (exec_cases h)
    · cases h; exact .stutter
  | agent ch =>
    rw [hn] at h
    simp only [scheduledStep] at h
    cases ch with
    | cpu c x =>
      simp only [choiceStep, State.cpuExists, hcfg, decide_eq_true_eq] at h
      split at h
      · next hc =>
        unfold cpuStep at h
        dsimp only at h
        rw [hdisp, hsend, hprog, hindex] at h
        split at h
        · next hd =>
          split at h
          · next tgt hs => cases h; exact .assertIpi c x tgt hc hn hd hs
          · next hs =>
            split at h
            · next it hit =>
              cases it with
              | command w d =>
                simp only [runItem] at h
                split at h
                · next i hi => exact .command c x w d i t hc hn hd hs hit hi (exec_cases h)
                · next code hcode => cases h; exact .decodeFault c x w d code hc hn hd hs hit (decode_error hcode)
              | access a => cases h; exact .access c x a _ hc hn hd hs hit (access_cases _ a)
            · cases h; exact .stutter
        · next hd => cases h; exact .dispatch c x hc hn hd
      · cases h; exact .stutter
    | entry c x =>
      simp only [choiceStep, State.cpuExists, hcfg, decide_eq_true_eq, entryStep, hdisp] at h
      split at h
      · next hc =>
        split at h
        · next hd => exact .entry c x t hc hn hd (exec_cases h)
        · cases h; exact .stutter
      · cases h; exact .stutter
    | devAssert l => cases h; exact .devAssert l hn
    | devCause v => cases h; exact .devCause v hn
    | bridge => cases h; exact .bridge hn

/-- A step uses up the next schedule entry and touches the schedule in no other way. -/
theorem step_sched {s t : State} (h : step s = .next t) : t.sched = s.popScheduled.sched := by
  cases (step_cases h).2.2 with
  | stutter => rfl
  | command c x w d i t _ _ _ _ _ _ he => cases he <;> simp
  | entry c x t _ _ _ he => cases he <;> simp
  | deliver c x t _ _ he => cases he <;> simp
  | assertIpi c x tgt _ _ _ _ => simp [State.assertIpi]
  | dispatch c x _ _ _ => simp [dispatch_frame (s.popScheduled.begin c x true)]
  | decodeFault c x w d code _ _ _ _ _ _ => simp
  | access c x a t _ _ _ _ _ he => cases he <;> simp
  | devAssert l _ => simp
  | devCause v _ => simp
  | bridge _ => simp

/-- Every command answers a next state. -/
theorem exec_answers (i : Instr) (s : State) : ∃ t, exec i s = .next t := by
  cases i <;> exact ⟨_, rfl⟩

/-- Every item of a program answers a next state. -/
theorem runItem_answers (it : Item) (s : State) : ∃ t, runItem it s = .next t := by
  unfold runItem
  split
  · split
    · exact exec_answers _ s
    · exact ⟨_, rfl⟩
  · exact ⟨_, rfl⟩

/-- Under a well-formed configuration and no fault, a step answers a next state (R7, R221). -/
theorem step_answers {s : State} (hg : cfgWellFormed s.cfg = true) (hf : s.fault = none) :
    ∃ t, step s = .next t := by
  unfold step
  rw [if_pos hg]
  split
  · next code hc => rw [hf] at hc; cases hc
  · generalize s.popScheduled = u
    cases s.nextScheduled with
    | deliver c x =>
      simp only [scheduledStep]
      split
      · exact exec_answers _ _
      · exact ⟨_, rfl⟩
    | agent ch =>
      cases ch with
      | cpu c x =>
        simp only [scheduledStep, choiceStep, cpuStep]
        split
        · split
          · split
            · exact ⟨_, rfl⟩
            · split
              · exact runItem_answers _ _
              · exact ⟨_, rfl⟩
          · exact ⟨_, rfl⟩
        · exact ⟨_, rfl⟩
      | entry c x =>
        simp only [scheduledStep, choiceStep, entryStep]
        split
        · split
          · exact exec_answers _ _
          · exact ⟨_, rfl⟩
        · exact ⟨_, rfl⟩
      | devAssert l => exact ⟨_, rfl⟩
      | devCause v => exact ⟨_, rfl⟩
      | bridge => exact ⟨_, rfl⟩

end Sys2Proof.Machine
end

