-- ==== Sys2Proof/Laws/Fairness.lean ====
section
/-! SUPPORT. Entries and fairness (43_dispatch.md R186; 60_exceptions.md R231): what an entry that a CPU takes does; a fair run takes what is left pending; every run is fair for some inputs; a fair run from power-on exists. -/

namespace Sys2Proof.Machine

/-- An entry that a CPU takes runs IRQ_ENTRY with its draws (R186). -/
theorem step_of_takesEntry {s t : State} {c : CpuId} {x : Draw} (h : s.TakesEntry c x) (hs : step s = .next t) :
    ∃ listed, exec .irqEntry (s.popScheduled.begin c x listed) = .next t := by
  obtain ⟨hc, hd, hn⟩ := h
  obtain ⟨_, _, hs⟩ := step_next hs
  have hcfg : s.popScheduled.cfg = s.cfg := by simp
  have hdisp : s.popScheduled.disp = s.disp := by simp
  have hsend : s.popScheduled.send = s.send := by simp
  have hprog : s.popScheduled.prog = s.prog := by simp
  have hindex : s.popScheduled.index = s.index := by simp
  rcases hn with hn | hn | ⟨_, hn, _, hse, w, d, hw, hi⟩ <;> rw [hn] at hs
  · refine ⟨false, ?_⟩
    simpa only [scheduledStep, choiceStep, entryStep, State.cpuExists, hcfg, hc, decide_true, if_true, hdisp, hd] using hs
  · refine ⟨false, ?_⟩
    simpa only [scheduledStep, State.cpuExists, hcfg, hc, decide_true, if_true] using hs
  · refine ⟨true, ?_⟩
    simpa only [scheduledStep, choiceStep, cpuStep, State.cpuExists, hcfg, hc, decide_true, if_true, hdisp, hd,
      hsend, hse, hprog, hindex, hw, runItem, hi] using hs

/-- An entry that a CPU takes with a non-zero summary enters a band that is raised (R170, R171). -/
theorem takesEntry_enters {s t : State} {c : CpuId} {x : Draw} (h : s.TakesEntry c x) (hs : step s = .next t)
    (hx : sum5 s c x ≠ 0) : ∃ b, BandRaised s c x b ∧ t.disp[c] = .band b := by
  obtain ⟨l, he⟩ := step_of_takesEntry h hs
  obtain ⟨_, hr⟩ := raised_of_sum5 hx
  obtain ⟨b, hb⟩ := bandOf_of_raised hr
  have hd := h.2.1
  have hsum : sum5 (s.popScheduled.begin c x l) c x = sum5 s c x := by
    simp [sum5, rawErr, rawHcnt, rawGenHi, rawGenLo, pend]
  cases exec_cases he with
  | raised _ code _ _ _ hn hi =>
    refine absurd ?_ (hn (hi rfl)).2
    simpa using hd
  | entrySpurious _ h0 =>
    simp only [State.begin_self, State.begin_draw, hsum, hb] at h0
    cases h0
  | entered b' _ h1 =>
    simp only [State.begin_self, State.begin_draw, hsum, hb] at h1
    cases h1
    exact ⟨b, bandOf_raised hb, by simp⟩

/-- What is left pending is taken by a later entry (R231): on a fair run, where CPU `c` is Idle and its
summary stays non-zero while it is Idle, a later entry of it enters a raised band. -/
theorem entryFair_takes_pending {inputs : Nat → CpuId → Draw} {r : Nat → State} (hr : IsRun r)
    (hi : DrawnFrom inputs r) (hf : EntryFair inputs r) {n : Nat} {c : CpuId} (hc : c.val < (r n).cfg.ncpu)
    (hd : (r n).disp[c] = .idle)
    (hp : ∀ m, n ≤ m → (r m).disp[c] = .idle → sum5 (r m) c (inputs m c) ≠ 0) :
    ∃ m b, n ≤ m ∧ BandRaised (r m) c (inputs m c) b ∧ (r (m + 1)).disp[c] = .band b := by
  obtain ⟨m, hm, x, hx⟩ := hf n c hc hd hp
  have he := hi m c x hx
  subst he
  obtain ⟨b, hb⟩ := takesEntry_enters hx (hr m) (hp m hm hx.2.1)
  exact ⟨m, b, hm, hb⟩

/-- A step is an entry of one CPU with one draw. -/
theorem takesEntry_unique {s : State} {c : CpuId} {x y : Draw} (hx : s.TakesEntry c x) (hy : s.TakesEntry c y) :
    x = y := by
  rcases hx.2.2 with h | h | ⟨_, h, _⟩ <;> rcases hy.2.2 with h' | h' | ⟨_, h', _⟩ <;> rw [h] at h' <;> cases h' <;> rfl

/-- Every run is fair for some inputs: fairness forces no entry on a CPU that does not exist or has nothing
pending. -/
theorem exists_fair_inputs (r : Nat → State) : ∃ inputs, DrawnFrom inputs r ∧ EntryFair inputs r := by
  classical
  refine ⟨fun n c => if h : ∃ x, (r n).TakesEntry c x then h.choose else ⟨0, false, .status⟩, ?_, ?_⟩
  · intro n c x hx
    have h : ∃ x, (r n).TakesEntry c x := ⟨x, hx⟩
    simp only [dif_pos h]
    exact takesEntry_unique h.choose_spec hx
  · intro n c _ hd hp
    by_cases h : ∃ x, (r n).TakesEntry c x
    · exact ⟨n, Nat.le_refl n, h⟩
    · refine absurd ?_ (hp n (Nat.le_refl n) hd)
      simp [dif_neg h, sum5]

/-- A state in which no CPU has a program: only the free choices act. -/
structure Quiet (s : State) : Prop where
  config : cfgWellFormed s.cfg = true
  unfaulted : s.fault = none
  programs : ∀ c : CpuId, s.prog[c] = []
  sends : ∀ c : CpuId, s.send[c] = .idle
  queue : s.bq = []
  schedule : s.sched = []

theorem Quiet.reset : Quiet State.reset := by
  refine ⟨by decide, rfl, ?_, ?_, rfl, rfl⟩ <;> intro c <;> simp [State.reset]

/-- A quiet state steps to a quiet state. -/
theorem Quiet.step {s t : State} (h : Quiet s) (hs : step s = .next t) : Quiet t := by
  obtain ⟨hg, hf, hp, he, hb, hsc⟩ := h
  have hnext : ∀ c x, s.nextScheduled ≠ .deliver c x := by
    intro c x; simp [State.nextScheduled, hsc]
  have hsched : t.sched = [] := by
    rw [step_sched hs]; simp [State.popScheduled, hsc]
  have frame : ∀ u : State, u.cfg = s.cfg → u.fault = s.fault → u.prog = s.prog → u.send = s.send →
      u.bq = s.bq → u.sched = [] → Quiet u := by
    intro u h1 h2 h3 h4 h5 h6
    refine ⟨by rw [h1]; exact hg, by rw [h2]; exact hf, ?_, ?_, by rw [h5]; exact hb, h6⟩
    · intro c; rw [h3]; exact hp c
    · intro c; rw [h4]; exact he c
  cases (step_cases hs).2.2 with
  | stutter => exact frame _ (by simp) (by simp) (by simp) (by simp) (by simp) hsched
  | command c x w d i t _ _ _ _ hw _ _ => rw [hp c] at hw; cases hw
  | entry c x t _ _ hd he' =>
    cases he' with
    | raised _ code _ _ _ hn hi => exact absurd (by simpa using hd) (hn (hi rfl)).2
    | entrySpurious _ _ => exact frame _ (by simp) (by simp) (by simp) (by simp) (by simp) hsched
    | entered b _ _ => exact frame _ (by simp) (by simp) (by simp) (by simp) (by simp) hsched
  | deliver c x t _ hn _ => exact absurd hn (hnext c x)
  | assertIpi c x tgt _ _ _ hse => rw [he c] at hse; cases hse
  | dispatch c x _ _ _ =>
    obtain ⟨h1, h2, h3, h4, _, _, _, _, _, h5, _⟩ := dispatch_frame (s.popScheduled.begin c x true)
    exact frame _ (by simpa using h4) (by simpa using h1) (by simpa using h2) (by simpa using h3)
      (by simpa using h5) hsched
  | decodeFault c x w d code _ _ _ _ hw _ => rw [hp c] at hw; cases hw
  | access c x a t _ _ _ _ hw _ => rw [hp c] at hw; cases hw
  | devAssert l _ => exact frame _ (by simp) (by simp) (by simp) (by simp) (by simp) hsched
  | devCause v _ => exact frame _ (by simp) (by simp) (by simp) (by simp) (by simp) hsched
  | bridge _ =>
    have : s.popScheduled.bridgeStep = s.popScheduled := by simp [State.bridgeStep, hb]
    rw [this] at hsched ⊢
    exact frame _ (by simp) (by simp) (by simp) (by simp) (by simp) hsched

/-- A fair run from power-on exists, so the fairness premises contradict neither each other nor a run. -/
theorem exists_fair_run : ∃ (r : Nat → State) (inputs : Nat → CpuId → Draw),
    r 0 = State.reset ∧ IsRun r ∧ BridgeFair r ∧ DrawnFrom inputs r ∧ EntryFair inputs r := by
  classical
  have hnext : ∀ q : { s // Quiet s }, ∃ q' : { s // Quiet s }, step q.1 = .next q'.1 := by
    intro ⟨s, hs⟩
    obtain ⟨t, ht⟩ := step_answers hs.config hs.unfaulted
    exact ⟨⟨t, hs.step ht⟩, ht⟩
  choose f hf using hnext
  let r : Nat → { s // Quiet s } := fun n => f^[n] ⟨State.reset, Quiet.reset⟩
  obtain ⟨inputs, hi, he⟩ := exists_fair_inputs (fun n => (r n).1)
  refine ⟨fun n => (r n).1, inputs, rfl, fun n => ?_, fun n h => absurd (r n).2.queue (h n (Nat.le_refl n)), hi, he⟩
  show step (r n).1 = .next (r (n + 1)).1
  simp only [r, Function.iterate_succ', Function.comp]
  exact hf _

end Sys2Proof.Machine
end

