-- ==== Sys2Proof/Laws/PerInstr.lean ====
section
/-! SUPPORT. The per-command family `Carried`: the word and data of a command carry its operation code and its operands, and leave every field its row does not list zero (30_encoding.md R80, R83, R84). -/

namespace Sys2Proof.Laws.Carried

/-- What the family says of a command. -/
def Statement (i : Instr) : Prop :=
  i.wellFormed = true →
    opcField (encode i).1 = i.op.row.opc ∧ fieldsOf (encode i).1 (encode i).2 = i.fields
      ∧ i.op.row.reservedZero i.fields = true

/-- The first two parts, for every command at once. -/
theorem of_reservedZero {i : Instr} (hz : i.op.row.reservedZero i.fields = true) : Statement i := by
  intro h
  obtain ⟨h2, h3, h4⟩ := wellFormed_fields h
  exact ⟨opcField_packWord (opc_lt i.op) h2 h3 h4, fieldsOf_packWord (opc_lt i.op) h2 h3 h4, hz⟩

theorem rdStatus : Statement .rdStatus :=
  of_reservedZero (by simp [Instr.op, Op.row, Instr.fields, OpcodeRow.reservedZero])

theorem wrSet (d : Word) : Statement (.wrSet d) :=
  of_reservedZero (by simp [Instr.op, Op.row, Instr.fields, OpcodeRow.reservedZero])

theorem wrClear (d : Word) : Statement (.wrClear d) :=
  of_reservedZero (by simp [Instr.op, Op.row, Instr.fields, OpcodeRow.reservedZero])

theorem rdMask (c : CpuId) : Statement (.rdMask c) :=
  of_reservedZero (by simp [Instr.op, Op.row, Instr.fields, OpcodeRow.reservedZero])

theorem wrMask (c : CpuId) (d : Word) : Statement (.wrMask c d) :=
  of_reservedZero (by simp [Instr.op, Op.row, Instr.fields, OpcodeRow.reservedZero])

theorem rdCause : Statement .rdCause :=
  of_reservedZero (by simp [Instr.op, Op.row, Instr.fields, OpcodeRow.reservedZero])

theorem assign (l : Nat) (c : CpuId) : Statement (.assign l c) :=
  of_reservedZero (by simp [Instr.op, Op.row, Instr.fields, OpcodeRow.reservedZero])

theorem release (l : Nat) : Statement (.release l) :=
  of_reservedZero (by simp [Instr.op, Op.row, Instr.fields, OpcodeRow.reservedZero])

theorem ownerOf (l : Nat) : Statement (.ownerOf l) :=
  of_reservedZero (by simp [Instr.op, Op.row, Instr.fields, OpcodeRow.reservedZero])

theorem bind (l b slot : Nat) : Statement (.bind l b slot) :=
  of_reservedZero (by simp [Instr.op, Op.row, Instr.fields, OpcodeRow.reservedZero])

theorem lookup (l : Nat) : Statement (.lookup l) :=
  of_reservedZero (by simp [Instr.op, Op.row, Instr.fields, OpcodeRow.reservedZero])

theorem startup (l : Nat) : Statement (.startup l) :=
  of_reservedZero (by simp [Instr.op, Op.row, Instr.fields, OpcodeRow.reservedZero])

theorem shutdown (l : Nat) : Statement (.shutdown l) :=
  of_reservedZero (by simp [Instr.op, Op.row, Instr.fields, OpcodeRow.reservedZero])

theorem ack (l : Nat) : Statement (.ack l) :=
  of_reservedZero (by simp [Instr.op, Op.row, Instr.fields, OpcodeRow.reservedZero])

theorem mask (l : Nat) : Statement (.mask l) :=
  of_reservedZero (by simp [Instr.op, Op.row, Instr.fields, OpcodeRow.reservedZero])

theorem unmask (l : Nat) : Statement (.unmask l) :=
  of_reservedZero (by simp [Instr.op, Op.row, Instr.fields, OpcodeRow.reservedZero])

theorem maskAck (l : Nat) : Statement (.maskAck l) :=
  of_reservedZero (by simp [Instr.op, Op.row, Instr.fields, OpcodeRow.reservedZero])

theorem ctrlInit : Statement .ctrlInit :=
  of_reservedZero (by simp [Instr.op, Op.row, Instr.fields, OpcodeRow.reservedZero])

theorem cpuReset (c : CpuId) : Statement (.cpuReset c) :=
  of_reservedZero (by simp [Instr.op, Op.row, Instr.fields, OpcodeRow.reservedZero])

theorem irqEntry : Statement .irqEntry :=
  of_reservedZero (by simp [Instr.op, Op.row, Instr.fields, OpcodeRow.reservedZero])

theorem ipiSend (c : CpuId) (d : Word) : Statement (.ipiSend c d) :=
  of_reservedZero (by simp [Instr.op, Op.row, Instr.fields, OpcodeRow.reservedZero])

theorem ipiReceive : Statement .ipiReceive :=
  of_reservedZero (by simp [Instr.op, Op.row, Instr.fields, OpcodeRow.reservedZero])

end Sys2Proof.Laws.Carried
end

