-- ==== Sys2Proof/Laws/Space.lean ====
section
/-! SUPPORT. The register an address names (20_memory.md R62-R64). -/

namespace Sys2Proof.Machine

/-- The mask register found at an offset. -/
theorem maskSlotAt_some {g : Cfg} {off : Nat} {k : CpuId} (h : maskSlotAt g off = some k) :
    k.val < g.ncpu ∧ g.offMask[k.val]? = some off := by
  have := List.find?_some h; simpa using this
/-- No mask register is found at an offset. -/
theorem maskSlotAt_none {g : Cfg} {off : Nat} (h : maskSlotAt g off = none) (k : CpuId)
    (hk : k.val < g.ncpu) : g.offMask[k.val]? ≠ some off := by
  have := List.find?_eq_none.1 h k (List.mem_finRange k); simp [hk] at this; exact this

/-- The parts of `OffsetsDistinct`. -/
theorem offsetsDistinct_parts (g : Cfg) (h : OffsetsDistinct g) :
    g.offStatus ≠ g.offSet ∧ g.offStatus ≠ g.offClear ∧ g.offStatus ≠ g.offCause ∧ g.offSet ≠ g.offClear
    ∧ g.offSet ≠ g.offCause ∧ g.offClear ≠ g.offCause ∧ g.offStatus ∉ g.offMask ∧ g.offSet ∉ g.offMask
    ∧ g.offClear ∉ g.offMask ∧ g.offCause ∉ g.offMask ∧ g.offMask.Nodup := by
  have := h.2; simp [List.nodup_append, List.nodup_cons] at this
  grind

/-- With distinct offsets, an offset names exactly one register (R64). -/
theorem regAtOffset_spec (g : Cfg) (h : OffsetsDistinct g) (off : Nat) (r : HeartReg) :
    regAtOffset g off = some r ↔
      (off = g.offStatus ∧ r = .status ∨ off = g.offSet ∧ r = .set ∨ off = g.offClear ∧ r = .clear
      ∨ (∃ k : CpuId, k.val < g.ncpu ∧ g.offMask[k.val]? = some off ∧ r = .mask k)
      ∨ off = g.offCause ∧ r = .cause) := by
  obtain ⟨h1, h2, h3, h4, h5, h6, h7, h8, h9, h10, h11⟩ := offsetsDistinct_parts g h
  have hm : ∀ {k : Nat}, g.offMask[k]? = some off → off ∈ g.offMask := fun e => List.mem_of_getElem? e
  unfold regAtOffset
  split
  · next e => subst e; constructor
              · rintro ⟨⟩; simp
              · rintro (⟨_, rfl⟩ | ⟨e, _⟩ | ⟨e, _⟩ | ⟨k, _, e, _⟩ | ⟨e, _⟩)
                · rfl
                · exact absurd e h1
                · exact absurd e h2
                · exact absurd (hm e) h7
                · exact absurd e h3
  split
  · next e => subst e; constructor
              · rintro ⟨⟩; simp
              · rintro (⟨e, rfl⟩ | ⟨e, rfl⟩ | ⟨e, _⟩ | ⟨k, _, e, _⟩ | ⟨e, _⟩)
                · exact absurd e.symm h1
                · rfl
                · exact absurd e h4
                · exact absurd (hm e) h8
                · exact absurd e h5
  split
  · next e => subst e; constructor
              · rintro ⟨⟩; simp
              · rintro (⟨e, rfl⟩ | ⟨e, rfl⟩ | ⟨e, rfl⟩ | ⟨k, _, e, _⟩ | ⟨e, _⟩)
                · exact absurd e.symm h2
                · exact absurd e.symm h4
                · rfl
                · exact absurd (hm e) h9
                · exact absurd e h6
  split
  · next n1 n2 n3 _ k hk =>
    obtain ⟨k1, k2⟩ := maskSlotAt_some hk
    constructor
    · rintro ⟨⟩; exact .inr (.inr (.inr (.inl ⟨k, k1, k2, rfl⟩)))
    · rintro (⟨e, rfl⟩ | ⟨e, rfl⟩ | ⟨e, rfl⟩ | ⟨k', _, e, rfl⟩ | ⟨e, rfl⟩)
      · exact absurd e n1
      · exact absurd e n2
      · exact absurd e n3
      · congr 2
        have := (List.getElem?_inj (List.getElem?_eq_some_iff.1 k2).1 h11).1 (k2.trans e.symm)
        exact Fin.ext this
      · subst e; exact absurd (hm k2) h10
  · next n1 n2 n3 _ hk =>
    split
    · next e => subst e; constructor
                · rintro ⟨⟩; simp
                · rintro (⟨e, rfl⟩ | ⟨e, rfl⟩ | ⟨e, rfl⟩ | ⟨k', hk', e, rfl⟩ | ⟨e, rfl⟩)
                  · exact absurd e n1
                  · exact absurd e n2
                  · exact absurd e n3
                  · exact absurd e (maskSlotAt_none hk k' hk')
                  · rfl
    · next n5 => 
      constructor
      · rintro ⟨⟩
      · rintro (⟨e, rfl⟩ | ⟨e, rfl⟩ | ⟨e, rfl⟩ | ⟨k', hk', e, rfl⟩ | ⟨e, rfl⟩)
        · exact absurd e n1
        · exact absurd e n2
        · exact absurd e n3
        · exact absurd e (maskSlotAt_none hk k' hk')
        · exact absurd e n5

/-- An access of another width, or misaligned, names no register (R62). -/
theorem regAt_bad {g : Cfg} {addr width : Nat} (h : ¬ (width = 8 ∧ addr % 8 = 0)) : regAt g addr width = none := by
  unfold regAt; rw [if_neg]; tauto

/-- With distinct offsets, an aligned 64-bit access names exactly one register (R62, R64). -/
theorem regAt_spec (g : Cfg) (h : OffsetsDistinct g) {addr : Nat} (ha : addr % 8 = 0)
    (r : HeartReg) : regAt g addr 8 = some r ↔
      (addr = g.heartBase + g.offStatus ∧ r = .status ∨ addr = g.heartBase + g.offSet ∧ r = .set
      ∨ addr = g.heartBase + g.offClear ∧ r = .clear
      ∨ (∃ k : CpuId, k.val < g.ncpu ∧ some (addr - g.heartBase) = g.offMask[k.val]? ∧ g.heartBase ≤ addr
        ∧ r = .mask k)
      ∨ addr = g.heartBase + g.offCause ∧ r = .cause) := by
  unfold regAt
  by_cases hb : g.heartBase ≤ addr
  · rw [if_pos ⟨rfl, ha, hb⟩, regAtOffset_spec g h]
    have : ∀ o, addr - g.heartBase = o ↔ addr = g.heartBase + o := fun o => by omega
    simp only [this]
    simp only [hb, true_and, eq_comm]
  · rw [if_neg (by tauto)]
    have : ∀ o, ¬ addr = g.heartBase + o := fun o => by omega
    simp [this, hb]

end Sys2Proof.Machine
end

