-- ==== Sys2Proof/Tests/Slice0.lean ====
section
/-! SUPPORT. Tests: ill-formed terms, words written out from the spec's encoding, vectors of 95_test_vectors.md (named W, D, A, O, K, X, I as there), and for each obligation with hypotheses a witness that meets them. -/

namespace Sys2Proof.Tests

open Sys2Proof Sys2Proof.Machine

/-! ### Well-formedness: an ill-formed term for each check -/

theorem test_wf_line_too_wide : (Instr.startup 256).wellFormed = false := by decide
theorem test_wf_line_widest : (Instr.startup 255).wellFormed = true := by decide
theorem test_wf_bridge_too_wide : (Instr.bind 20 256 3).wellFormed = false := by decide
theorem test_wf_slot_too_wide : (Instr.bind 20 0 256).wellFormed = false := by decide
theorem test_wf_bind_line_too_wide : (Instr.bind 256 0 3).wellFormed = false := by decide
theorem test_wf_assign_line_too_wide : (Instr.assign 256 1).wellFormed = false := by decide

/-! ### Decoding: one word for each constructor, written from the format of R80 and the codes of R84.
`OPC` is the top five bits: 0x01 is 0b00001, so RD_STATUS is 0b00001_000_…; `C` is the next three. -/

theorem test_decode_rd_status : decode 0b00001_000_00000000_00000000_00000000 0 = .ok .rdStatus := by decide
theorem test_decode_wr_set : decode 0b00010_000_00000000_00000000_00000000 7 = .ok (.wrSet 7) := by decide
theorem test_decode_wr_clear : decode 0b00011_000_00000000_00000000_00000000 9 = .ok (.wrClear 9) := by decide
theorem test_decode_rd_mask : decode 0b00100_101_00000000_00000000_00000000 0 = .ok (.rdMask 5) := by decide
theorem test_decode_wr_mask : decode 0b00101_001_00000000_00000000_00000000 8 = .ok (.wrMask 1 8) := by decide
theorem test_decode_rd_cause : decode 0b00110_000_00000000_00000000_00000000 0 = .ok .rdCause := by decide
theorem test_decode_assign : decode 0b01000_001_00000000_00000000_00101010 0 = .ok (.assign 42 1) := by decide
theorem test_decode_release : decode 0b01001_000_00000000_00000000_00000111 0 = .ok (.release 7) := by decide
theorem test_decode_owner_of : decode 0b01010_000_00000000_00000000_00111111 0 = .ok (.ownerOf 63) := by decide
theorem test_decode_bind : decode 0b01100_000_00000010_00000011_00010100 0 = .ok (.bind 20 2 3) := by decide
theorem test_decode_lookup : decode 0b01101_000_00000000_00000000_00010101 0 = .ok (.lookup 21) := by decide
theorem test_decode_startup : decode 0b10000_000_00000000_00000000_00101010 0 = .ok (.startup 42) := by decide
theorem test_decode_shutdown : decode 0b10001_000_00000000_00000000_00001010 0 = .ok (.shutdown 10) := by decide
theorem test_decode_ack : decode 0b10010_000_00000000_00000000_00000101 0 = .ok (.ack 5) := by decide
theorem test_decode_mask : decode 0b10011_000_00000000_00000000_00101010 0 = .ok (.mask 42) := by decide
theorem test_decode_unmask : decode 0b10100_000_00000000_00000000_00101010 0 = .ok (.unmask 42) := by decide
theorem test_decode_mask_ack : decode 0b10101_000_00000000_00000000_00111111 0 = .ok (.maskAck 63) := by decide
theorem test_decode_ctrl_init : decode 0b11000_000_00000000_00000000_00000000 0 = .ok .ctrlInit := by decide
theorem test_decode_cpu_reset : decode 0b11001_001_00000000_00000000_00000000 0 = .ok (.cpuReset 1) := by decide
theorem test_decode_irq_entry : decode 0b11010_000_00000000_00000000_00000000 0 = .ok .irqEntry := by decide
theorem test_decode_ipi_send : decode 0b11100_001_00000000_00000000_00000000 1 = .ok (.ipiSend 1 1) := by decide
theorem test_decode_ipi_receive : decode 0b11101_000_00000000_00000000_00000000 0 = .ok .ipiReceive := by decide

/-- D-1 to D-4, and the other codes of R85. -/
theorem test_decode_illegal : [0x00000000#32, 0x38000000#32, 0xF8000000#32, 0x5800002A#32, 0x70000000#32,
    0x78000000#32, 0xB0000000#32, 0xB8000000#32, 0xD8000000#32, 0xF0000000#32].all
      (fun w => decide (decode w 0 = .error .illegalOpcode)) = true := by decide

/-- D-5 to D-10. -/
theorem test_decode_reserved : [(0x08000001#32, 0#64), (0x08000000#32, 1#64), (0x80000100#32, 0#64),
    (0x80010040#32, 0#64), (0x61000014#32, 0#64), (0xD0000001#32, 0#64)].all
      (fun p => decide (decode p.1 p.2 = .error .reservedField)) = true := by decide

/-- D-19 and D-22: a data command carries any data operand. -/
theorem test_decode_data : decode 0x10000000 0xFFFFFFFFFFFFFFFF = .ok (.wrSet 0xFFFFFFFFFFFFFFFF)
    ∧ decode 0x28000000 0 = .ok (.wrMask 0 0) := by decide

/-- The columns match, mask and data of R84, row by row. -/
theorem test_opcode_map_as_printed : opcodeMap.map (fun r => (r.op, r.matchWord, r.maskWord, r.usesD))
    = printedMap.map (fun r => (r.op, r.matchW, r.maskW, r.data)) := by decide

/-- `decodeTableWord` reads the command word in bits 31..0 and the data operand above it. -/
theorem test_table_word : decodeTableWord 32 0x8000002A = some (.startup 42)
    ∧ decodeTableWord 96 0x1_E1000000 = some (.ipiSend 1 1) ∧ decodeTableWord 32 0 = none := by decide

/-! ### Assembler text (R87, R88) -/

theorem test_assemble_table : assemble "wr_set #-1".toList = some (.wrSet 0xFFFFFFFFFFFFFFFF)
    ∧ assemble "  mask_ack  0x3F".toList = some (.maskAck 63)
    ∧ assemble "irq_entry".toList = some .irqEntry := by decide

theorem test_assemble_pseudo : assemble "enable 42".toList = some (.unmask 42)
    ∧ assemble "ipi_call 1".toList = some (.ipiSend 1 2)
    ∧ assemble "ack_err".toList = some (.wrClear 0xFFF8000000000000) := by decide

theorem test_assemble_rejects : assemble "startup 256".toList = none ∧ assemble "startup".toList = none
    ∧ assemble "wr_set 5".toList = none ∧ assemble "Startup 5".toList = none := by decide

/-- W10: the words of two pseudo-commands. -/
theorem test_pseudo_words : encode (Pseudo.enable 42).expand = (0xA000002A, 0)
    ∧ encode (Pseudo.disable 42).expand = (0x9800002A, 0) := by decide

/-- The codes of R223. -/
theorem test_fault_codes : [FaultCode.illegalOpcode, .reservedField, .irqRange, .cpuRange, .bridgeRange,
    .slotRange, .doubleBind, .nestedEntry, .mmioAccess].map FaultCode.code = [1, 2, 3, 4, 5, 6, 7, 8, 9] := by
  decide

/-! ### Small states -/

/-- What holds of the state an outcome leaves. -/
def leaves (o : Out) (p : State → Bool) : Bool :=
  match o with
  | .next t => p t
  | .fault _ => false
  | .refused _ => false

/-- Power-on with the two mask registers and the status register written. -/
def withRegs (st m0 m1 : Word) : State := ((State.reset.setMask 0 m0).setMask 1 m1).statusSet st

/-- The state with one CPU acting. -/
def actingOn (c : CpuId) (s : State) : State := { s with self := c }

/-- The draws of an entry (R33). -/
def drawing (ie : BitVec 5) (tpend : Bool) (s : State) : State := { s with draw := ⟨ie, tpend, .status⟩ }

/-! ### Register access (A-1 to A-9) -/

theorem test_a1_rd_status : leaves (exec .rdStatus (withRegs 0x0000040000000020 0 0)) (fun t =>
    t.hist == [.resp 0 .rdStatus (.word 0x0000040000000020)] && t.status == 0x0000040000000020) = true := by
  decide
theorem test_a3_wr_set : leaves (exec (.wrSet 0x8000000000000000) (withRegs 1 0 0)) (fun t =>
    t.status == 0x8000000000000001 && t.index[0] == 1) = true := by decide
theorem test_a4_wr_clear : leaves (exec (.wrClear 0x21) (withRegs 0x8000000000000021 0 0)) (fun t =>
    t.status == 0x8000000000000000) = true := by decide
theorem test_a7_rd_mask : leaves (exec (.rdMask 1) (withRegs 0 5 0x0000080000000000)) (fun t =>
    t.hist == [.resp 0 .rdMask (.word 0x0000080000000000)]) = true := by decide
theorem test_a7_wr_mask : leaves (exec (.wrMask 1 0x0000080000000000) (withRegs 0 5 6)) (fun t =>
    t.mask[1] == 0x0000080000000000 && t.mask[0] == 5) = true := by decide
theorem test_a9_rd_cause : leaves (exec .rdCause (State.reset.causeSet 0x8000000000000000)) (fun t =>
    t.hist == [.resp 0 .rdCause (.word 0x8000000000000000)] && t.cause == 0x8000000000000000) = true := by
  decide
/-- D-13: `rd_mask 2` under two CPUs. -/
theorem test_d13_cpu_range : leaves (exec (.rdMask 2) State.reset) (fun t =>
    t.fault == some .cpuRange && t.hist == [.fault 0 .cpuRange] && t.index[0] == 0) = true := by decide

/-! ### Address-level access (A-10 to A-14) -/

theorem test_a10_read_set : (State.reset.access (.read (0x0FF00000 + 0x10020) 8)).fault = some .mmioAccess := by
  decide
theorem test_a11_write_status :
    (State.reset.access (.write (0x0FF00000 + 0x10030) 8 1)).fault = some .mmioAccess := by decide
theorem test_a12_narrow : (State.reset.access (.read (0x0FF00000 + 0x10030) 4)).fault = some .mmioAccess := by
  decide
theorem test_a13_absent_mask :
    (State.reset.access (.read (0x0FF00000 + 0x10010) 8)).fault = some .mmioAccess := by decide
theorem test_a14_write_set : (State.reset.access (.write (0x0FF00000 + 0x10020) 8 4)).status = 4
    ∧ (State.reset.access (.write (0x0FF00000 + 0x10020) 8 4)).hist = [] := by decide

/-! ### Ownership and binding (O-1 to O-11, D-14 to D-16) -/

theorem test_o1_assign : leaves (exec (.assign 42 1) State.reset) (fun t =>
    t.owner[42] == some 1 && t.hist == [.resp 0 .assign (.assigned true)]) = true := by decide
theorem test_o3_assign_again : leaves (exec (.assign 42 1) (State.reset.setOwner 42 (some 1))) (fun t =>
    t.owner[42] == some 1 && t.hist == [.violation 42, .resp 0 .assign (.assigned false)]) = true := by decide
theorem test_o5_release : leaves (exec (.release 7) ((withRegs 0 0x80 0).setOwner 7 (some 0))) (fun t =>
    t.owner[7] == none && t.mask[0] == 0x80) = true := by decide
theorem test_o7_owner_of : leaves (exec (.ownerOf 43) (State.reset.setOwner 43 (some 1))) (fun t =>
    t.hist == [.resp 0 .ownerOf (.owner (some 1))]) = true := by decide
theorem test_o8_bind : leaves (exec (.bind 20 0 3) State.reset) (fun t =>
    t.bind[20] == some ⟨0, 3⟩ && t.bq == []) = true := by decide
theorem test_o9_double_bind : leaves (exec (.bind 20 0 4) (State.reset.setBind 20 (some ⟨0, 3⟩))) (fun t =>
    t.fault == some .doubleBind && t.bind[20] == some ⟨0, 3⟩) = true := by decide
theorem test_o11_lookup : leaves (exec (.lookup 20) (State.reset.setBind 20 (some ⟨0, 3⟩))) (fun t =>
    t.hist == [.resp 0 .lookup (.binding (some ⟨0, 3⟩))]) = true := by decide
/-- D-14 to D-16: the order of the range checks. -/
theorem test_d14_range_order : leaves (exec (.assign 64 2) State.reset) (fun t => t.fault == some .irqRange) = true
    ∧ leaves (exec (.bind 20 1 8) State.reset) (fun t => t.fault == some .bridgeRange) = true
    ∧ leaves (exec (.bind 20 0 8) State.reset) (fun t => t.fault == some .slotRange) = true := by decide

/-! ### Controller (K-1 to K-18) -/

theorem test_k1_startup : leaves (exec (.startup 42) (withRegs 0x0000040000000020 0x20 0)) (fun t =>
    t.owner[42] == some 0 && t.status == 0x20 && t.mask[0] == 0x0000040000000020
      && t.hist == [.resp 0 .startup (.startup .ok)]) = true := by decide
theorem test_k7_startup_flushes : leaves (exec (.startup 20) { State.reset.setBind 20 (some ⟨0, 3⟩) with
    bridges := [⟨0x20, 0, [0, 0, 0, 0, 0, 0, 0, 0]⟩], bq := [⟨0, 5, .enClear⟩] }) (fun t =>
    t.bridges.map (fun b => (b.en, b.mode)) == [(0x08, 0x08)] && t.bq == []) = true := by decide
theorem test_k8_shutdown : leaves (exec (.shutdown 20) ((withRegs 0x100000 0x100000 0).setOwner 20 (some 0)))
    (fun t => t.mask[0] == 0 && t.owner[20] == none && t.status == 0x100000) = true := by decide
theorem test_k6_shutdown_idle : leaves (exec (.shutdown 20) (State.reset.setBind 20 (some ⟨0, 3⟩))) (fun t =>
    t.bq == [⟨0, 3, .enClear⟩]) = true := by decide
theorem test_w3_ack : leaves (exec (.ack 5) (withRegs 0x0000010000000020 0x20 0)) (fun t =>
    t.status == 0x0000010000000000 && t.mask[0] == 0x20) = true := by decide
theorem test_k10_mask_idle : leaves (exec (.mask 42) (withRegs 0 0x0000040000000000 0)) (fun t =>
    t.mask[0] == 0x0000040000000000) = true := by decide
theorem test_r146_mask : leaves (exec (.mask 42) ((withRegs 0 0x0000040000000020 0).setOwner 42 (some 0)))
    (fun t => t.mask[0] == 0x20 && t.owner[42] == some 0) = true := by decide
theorem test_k11_unmask : leaves (exec (.unmask 42) ((withRegs 0x0000040000000000 0 0).setOwner 42 (some 0)))
    (fun t => t.mask[0] == 0x0000040000000000 && rawGenHi t 0) = true := by decide
theorem test_k13_mask_ack_idle : leaves (exec (.maskAck 7) (withRegs 0x80 0x80 0)) (fun t =>
    t.status == 0 && t.mask[0] == 0x80) = true := by decide
theorem test_k14_mask_ack_owner : leaves (exec (.maskAck 7) ((withRegs 0x80 0x80 0x80).setOwner 7 (some 1)))
    (fun t => t.mask[1] == 0 && t.mask[0] == 0x80 && t.status == 0) = true := by decide
theorem test_k15_ctrl_init : leaves (exec .ctrlInit (((withRegs 8 0x0000040000000000 7).setOwner 42
    (some 0)).setBind 20 (some ⟨0, 3⟩))) (fun t => t.mask[0] == 0 && t.mask[1] == 0 && t.owner[42] == none
      && t.status == 8 && t.bind[20] == some ⟨0, 3⟩) = true := by decide
theorem test_k16_cpu_reset : leaves (exec (.cpuReset 1) ((withRegs 0 5 0x0000080000000000).setOwner 43
    (some 1))) (fun t => t.mask[1] == 0 && t.mask[0] == 5 && t.owner[43] == some 1) = true := by decide
/-- D-18: `cpu_reset 7`. -/
theorem test_d18_cpu_reset_range : leaves (exec (.cpuReset 7) State.reset) (fun t =>
    t.fault == some .cpuRange) = true := by decide

/-! ### Dispatch (X-1 to X-14, W5, W9) -/

theorem test_x1_spurious : leaves (exec .irqEntry (drawing 0 false State.reset)) (fun t =>
    t.hist == [.spurious 0, .resp 0 .irqEntry .unit] && t.disp[0] == .idle && t.index[0] == 1) = true := by
  decide
theorem test_x2_counter_first : leaves (exec .irqEntry (drawing 0b11111 true
    (withRegs 0x0080000000000000 0x0080000000000000 0))) (fun t =>
      t.disp[0] == .band .cpucnt && t.index[0] == 0) = true := by decide
theorem test_x5_mask_gates_errors : leaves (exec .irqEntry (drawing 0b11111 false
    (withRegs 0x0080000000000000 0 0))) (fun t => t.hist == [.spurious 0, .resp 0 .irqEntry .unit]) = true := by
  decide
/-- X-13: an entry during an entry. -/
theorem test_x13_nested : leaves (exec .irqEntry (State.reset.setDisp 0 (.scan 4))) (fun t =>
    t.fault == some .nestedEntry && t.disp[0] == .scan 4) = true := by decide
/-- W9: the second step of the error band. -/
theorem test_w9_error_band : (dispErrAck 0x0480000000000000 3 (withRegs 0x0480000000000020 0 0)).status = 0x20
    ∧ (dispErrAck 0x0480000000000000 3 (withRegs 0x0480000000000020 0 0)).hist
      = [.errReport 0 [58, 55] 3, .resp 0 .irqEntry .unit] := by decide
/-- X-6 and X-7: the snapshot keeps the value read first. -/
theorem test_x6_snapshot_status_first : (dispSnapSecond .status 0x20 (withRegs 0 0x20 0)).disp[0] = .scan 0x20 := by
  decide
theorem test_x7_snapshot_mask_first :
    (dispSnapSecond .mask 0x20 (withRegs 0 0x20 0)).hist = [.spurious 0, .resp 0 .irqEntry .unit] := by decide
/-- W5: the scan takes line 63 first. -/
theorem test_w5_scan : (dispScan 0x8000010000000020 State.reset).disp[0] = .flow 0x0000010000000020 63 .pre
    ∧ (dispScan 0x8000010000000020 State.reset).hist = [.dispatch 0 63] := by decide
theorem test_x11_ipi_handler :
    (dispFlowHandler 0 43 (actingOn 1 (State.reset.setMbox 1 1))).hist = [.ipiAction 1 .resched]
    ∧ (dispFlowHandler 0 43 (actingOn 1 (State.reset.setMbox 1 1))).mbox[1] = 0 := by decide

/-! ### IPI (I-1 to I-8) -/

theorem test_i1_send : leaves (exec (.ipiSend 0 1) State.reset) (fun t =>
    t.mbox[0] == 1 && t.send[0] == .asserting 0 && t.status == 0 && t.hist == []) = true := by decide
theorem test_i2_second_phase : ((State.reset.setSend 0 (.asserting 1)).assertIpi 1).status = 0x0000080000000000
    ∧ ((State.reset.setSend 0 (.asserting 1)).assertIpi 1).send[0] = .idle := by decide
theorem test_i3_receive : leaves (exec .ipiReceive (actingOn 1 ((withRegs 0x0000080000000000 0 0).setMbox 1 5)))
    (fun t => t.mbox[1] == 0 && t.status == 0
      && t.hist == [.ipiAction 1 .resched, .resp 1 .ipiReceive (.word 5)]) = true := by decide
theorem test_r204_both_actions : leaves (exec .ipiReceive (actingOn 1 (State.reset.setMbox 1 3))) (fun t =>
    t.hist == [.ipiAction 1 .resched, .ipiAction 1 .call, .resp 1 .ipiReceive (.word 3)]) = true := by decide

/-! ### Configuration -/

/-- `RouteVal` is read from the configuration, for exactly the triple it lists (R6, R140). -/
theorem test_route_value : (exec (.startup 20) { State.reset.setBind 20 (some ⟨0, 3⟩) with
    cfg := { cfg0 with routeVal := [⟨0, 3, 21, 5⟩, ⟨0, 3, 20, 7⟩] } } |> fun o => leaves o (fun t =>
      t.bridges.map (fun b => b.route[3]?) == [some 7])) = true := by decide

/-- A posted slot-enable clear, and no binding. -/
def withPosted : State :=
  { State.reset with
    bridges := [⟨0x20, 0, [0, 0, 0, 0, 0, 0, 0, 0]⟩]
    bq := [⟨0, 5, .enClear⟩] }

/-- R140's pseudocode: a STARTUP of an unbound line posts and flushes nothing. -/
theorem test_startup_unbound_keeps : leaves (exec (.startup 20) withPosted) (fun t =>
    t.bridges.map (·.en) == [0x20] && t.bq == [⟨0, 5, .enClear⟩] && t.owner[20] == some 0) = true := by decide

/-! ### The step -/

/-- Every row of the opcode map, its operands zero, runs as the first command after power-on and raises
no fault. -/
theorem test_first_command_runs : opcodeMap.all (fun r =>
    leaves (step (State.reset.withFetchWord 32 r.matchWord.toNat)) (fun t => t.fault == none)) = true := by decide

/-- D-1: the all-zero word faults, and the program index stays. -/
theorem test_illegal_word_faults : leaves (step (State.reset.withFetchWord 32 0)) (fun t =>
    t.fault == some .illegalOpcode && t.hist == [.fault 0 .illegalOpcode] && t.index[0] == 0) = true := by decide

/-- W7: the bridge agent performs the posted clear. -/
theorem test_w7_bridge_agent : leaves (step { State.reset with
    bridges := [⟨0x08, 0x08, [0]⟩], bq := [⟨0, 3, .enClear⟩], sched := [.agent .bridge] }) (fun t =>
      t.bridges == [⟨0, 0x08, [0]⟩] && t.bq == []) = true := by decide

/-! ### Witnesses: concrete states and operands that meet the hypotheses of each obligation, clause by clause -/

/-- The state whose next step is the choice `ch`. -/
def onSchedule (ch : Choice) (s : State) : State := { s with sched := [.agent ch] }

/-- Draws with the two generic bands enabled. -/
def genericDraw : Draw := ⟨0b00011, false, .status⟩

/-- CPU 0 about to run the item `it`. -/
def running (it : Item) : State :=
  { onSchedule (.cpu 0 genericDraw) State.reset with prog := State.reset.prog.set 0 [it] }

/-- A state with line 20 bound to slot 7 of bridge 0, the last slot of `CFG0`. -/
def boundState : State := State.reset.setBind 20 (some ⟨0, 7⟩)

/-- CPU 1 in the middle of a scan. -/
def busyState : State := State.reset.setDisp 1 (.scan 5)

/-- The state whose next step is an entry that a harness delivers to CPU 1. -/
def delivering (s : State) : State := { s with sched := [.deliver 1 genericDraw] }

theorem witness_takes (ch : Choice) (s : State) (h : s.cfg = cfg0) (hf : s.fault = none) :
    (onSchedule ch s).Takes ch [] :=
  ⟨by show cfgWellFormed s.cfg = true; rw [h]; decide, hf, rfl⟩

theorem witness_cpuTakes (s : State) (c : CpuId) (hc : c.val < 2) (h : s.cfg = cfg0) (hf : s.fault = none) :
    (onSchedule (.cpu c genericDraw) s).CpuTakes c genericDraw [] :=
  ⟨witness_takes _ s h hf, by show c.val < s.cfg.ncpu; rw [h]; exact hc⟩

theorem witness_fetches (it : Item) : (running it).Fetches 0 genericDraw [] it :=
  ⟨⟨⟨by show cfgWellFormed cfg0 = true; decide, rfl, rfl⟩, by show 0 < cfg0.ncpu; decide⟩, rfl, rfl, rfl⟩

/-- CPU 1 exists under `CFG0` and CPU 2 does not; handle 63 is a line, 64 is not; 255 fits its field. -/
theorem witness_MaskRegisterCommands :
    State.reset.cfg.ncpu ≤ (2 : CpuId).val ∧ (1 : CpuId).val < State.reset.cfg.ncpu := by decide

theorem witness_AssignRecordsOnlyAFirstOwner : 255 < 256 ∧ 64 ≤ 64 ∧ (63 : Line).val = 63
    ∧ State.reset.cfg.ncpu ≤ (2 : CpuId).val ∧ (1 : CpuId).val < State.reset.cfg.ncpu
    ∧ State.reset.owner[(63 : Line)] = none ∧ (State.reset.setOwner 63 (some 1)).owner[(63 : Line)] ≠ none := by
  decide

theorem witness_ReleaseOwnerOfAndLookup : 255 < 256 ∧ 64 ≤ 64 ∧ (63 : Line).val = 63 ∧ (0 : Line).val = 0 := by
  decide

theorem witness_BindRecordsAFirstBinding : (20 : Line).val = 20 ∧ State.reset.cfg.nbridge ≤ 1
    ∧ 0 < State.reset.cfg.nbridge ∧ State.reset.cfg.nslot ≤ 8 ∧ 7 < State.reset.cfg.nslot
    ∧ boundState.bind[(20 : Line)] ≠ none ∧ State.reset.bind[(20 : Line)] = none := by decide

theorem witness_StartupMakesALineActive : cfgPin State.reset.cfg 43 = some 1 ∧ cfgPin State.reset.cfg 20 = none
    ∧ State.reset.owner[(43 : Line)] = none ∧ (State.reset.setOwner 20 (some 0)).owner[(20 : Line)] ≠ none
    ∧ State.reset.bind[(43 : Line)] = none ∧ boundState.bind[(20 : Line)] = some ⟨0, 7⟩
    ∧ boundState.owner[(20 : Line)] = none
    ∧ withPosted.owner[(20 : Line)] = none ∧ withPosted.bind[(20 : Line)] = none := by decide

theorem witness_ShutdownMakesALineIdle : (63 : Line).val = 63 ∧ State.reset.bind[(63 : Line)] = none
    ∧ boundState.bind[(20 : Line)] = some ⟨0, 7⟩ ∧ 64 ≤ 64 := by decide

/-- For ACK, MASK, UNMASK and MASK_ACK: both range clauses, and an Idle and an Active line. -/
theorem witness_AckMaskUnmaskMaskAck : 255 < 256 ∧ 64 ≤ 64 ∧ (63 : Line).val = 63
    ∧ State.reset.owner[(63 : Line)] = none
    ∧ (State.reset.setOwner 63 (some 1)).owner[(63 : Line)] = some 1 := by decide

theorem witness_InitAndCpuResetClearMasks :
    (1 : CpuId).val < State.reset.cfg.ncpu ∧ State.reset.cfg.ncpu ≤ (7 : CpuId).val := by decide

/-- A busy dispatcher; an idle one with GEN_LO the only band raised; an idle one with no band raised. -/
theorem witness_EntryTakesTheHighestBand :
    (State.reset.setDisp 0 (.scan 1)).disp[(0 : CpuId)] ≠ .idle
    ∧ (sum5 (withRegs 1 1 0) 0 genericDraw = 0b00001 ∧ (withRegs 1 1 0).disp[(0 : CpuId)] = .idle)
    ∧ (sum5 State.reset 0 genericDraw = 0 ∧ State.reset.disp[(0 : CpuId)] = .idle) := by decide

theorem witness_EntryTakesTheHighestBand_raised :
    BandRaised (withRegs 1 1 0) 0 genericDraw .genLo
    ∧ ∀ b, BandRaised (withRegs 1 1 0) 0 genericDraw b → Band.genLo.priority ≤ b.priority := by
  refine ⟨(bandRaised_iff ..).2 (by decide), fun b hb => ?_⟩
  rw [bandRaised_iff] at hb
  cases b <;> revert hb <;> decide

theorem witness_EntryTakesTheHighestBand_none (b : Band) : ¬ BandRaised State.reset 0 genericDraw b := by
  rw [bandRaised_iff]
  cases b <;> decide

theorem witness_CounterBandsDispatchAFixedIrq :
    (onSchedule (.cpu 1 genericDraw) (State.reset.setDisp 1 (.band .cpucnt))).CpuTakes 1 genericDraw []
    ∧ (State.reset.setDisp 1 (.band .cpucnt)).disp[(1 : CpuId)] = .band .cpucnt
    ∧ (State.reset.setDisp 1 (.band .hcnt)).disp[(1 : CpuId)] = .band .hcnt :=
  ⟨witness_cpuTakes _ 1 (by decide) rfl rfl, by decide, by decide⟩

theorem witness_ErrorBandReportsAndAcknowledges :
    (onSchedule (.cpu 0 genericDraw) (State.reset.setDisp 0 (.errAck 1 2))).CpuTakes 0 genericDraw []
    ∧ (State.reset.setDisp 0 (.band .err)).disp[(0 : CpuId)] = .band .err
    ∧ (State.reset.setDisp 0 (.errAck 1 2)).disp[(0 : CpuId)] = .errAck 1 2 :=
  ⟨witness_cpuTakes _ 0 (by decide) rfl rfl, by decide, by decide⟩

/-- Both generic bands, both first reads, an empty and a non-empty snapshot. -/
theorem witness_GenericBandTakesOneSnapshot :
    (onSchedule (.cpu 0 genericDraw) (State.reset.setDisp 0 (.band .genLo))).CpuTakes 0 genericDraw []
    ∧ (State.reset.setDisp 0 (.band .genHi)).disp[(0 : CpuId)] = .band .genHi
    ∧ genericDraw.first = .status ∧ (⟨0, false, .mask⟩ : Draw).first = .mask
    ∧ snapshot .status 1 (withRegs 0 1 0) = 1 ∧ snapshot .mask 1 (withRegs 0 1 0) = 0 :=
  ⟨witness_cpuTakes _ 0 (by decide) rfl rfl, by decide, rfl, rfl, by decide, by decide⟩

theorem witness_ScanDispatchesTheHighestLine :
    (onSchedule (.cpu 0 genericDraw) (State.reset.setDisp 0 (.scan 5))).CpuTakes 0 genericDraw []
    ∧ (State.reset.setDisp 0 (.scan 5)).disp[(0 : CpuId)] = .scan 5
    ∧ ((5 : Word).getLsbD (2 : Line).val = true ∧ ∀ i : Line, 2 < i → (5 : Word).getLsbD i.val = false)
    ∧ ((0 : Word) = 0 ∧ (State.reset.setDisp 0 (.scan 0)).disp[(0 : CpuId)] = .scan 0) :=
  ⟨witness_cpuTakes _ 0 (by decide) rfl rfl, by decide, by decide, by decide⟩

/-- Each phase, an IPI line and another. -/
theorem witness_FlowStepsEqualTheirCommands :
    (onSchedule (.cpu 0 genericDraw) (State.reset.setDisp 0 (.flow 0 42 .pre))).CpuTakes 0 genericDraw []
    ∧ (State.reset.setDisp 0 (.flow 0 42 .pre)).disp[(0 : CpuId)] = .flow 0 42 .pre
    ∧ (State.reset.setDisp 0 (.flow 0 42 .handler)).disp[(0 : CpuId)] = .flow 0 42 .handler
    ∧ (State.reset.setDisp 0 (.flow 0 42 .post)).disp[(0 : CpuId)] = .flow 0 42 .post
    ∧ (∃ c : CpuId, c.val < State.reset.cfg.ncpu ∧ cfgIpiLine State.reset.cfg c = 42)
    ∧ ¬ ∃ c : CpuId, c.val < State.reset.cfg.ncpu ∧ cfgIpiLine State.reset.cfg c = 41 :=
  ⟨witness_cpuTakes _ 0 (by decide) rfl rfl, by decide, by decide, by decide, by decide, by decide⟩

theorem witness_InterruptContextComesFirst :
    (onSchedule (.cpu 0 genericDraw) (State.reset.setDisp 0 (.scan 5))).CpuTakes 0 genericDraw []
    ∧ (State.reset.setDisp 0 (.scan 5)).disp[(0 : CpuId)] ≠ .idle :=
  ⟨witness_cpuTakes _ 0 (by decide) rfl rfl, by decide⟩

/-- A state in which line 5 is asserted next. -/
def asserting : State := onSchedule (.devAssert 5) boundState

theorem witness_AgentsNeverNestEntries :
    (∀ c x, asserting.nextScheduled ≠ .deliver c x) ∧ ∃ t, step asserting = .next t :=
  ⟨by simp [asserting, onSchedule, State.nextScheduled], _, step_of_takes (witness_takes _ _ rfl rfl)⟩

theorem witness_IpiSendPostsToTheMailbox :
    (1 : CpuId).val < State.reset.cfg.ncpu ∧ State.reset.cfg.ncpu ≤ (2 : CpuId).val := by decide

theorem witness_IpiSendAssertsTheTargetLine :
    (onSchedule (.cpu 0 genericDraw) (State.reset.setSend 0 (.asserting 1))).CpuTakes 0 genericDraw []
    ∧ (State.reset.setSend 0 (.asserting 1)).disp[(0 : CpuId)] = .idle
    ∧ (State.reset.setSend 0 (.asserting 1)).send[(0 : CpuId)] = .asserting 1 :=
  ⟨witness_cpuTakes _ 0 (by decide) rfl rfl, by decide, by decide⟩

theorem witness_IpiReceiveDrainsTheMailbox : State.reset.cfg.callBit ≠ reschedBit := by decide

theorem witness_SendsCoalesceInTheMailbox :
    (1 : CpuId).val < State.reset.cfg.ncpu ∧ State.reset.mbox[(1 : CpuId)] = 0 := by decide

/-- A step that drains a mailbox: a witness for the statements about every step that gives a next state. -/
theorem witness_NoMailboxActionIsLost : leaves (step ((State.reset.setMbox 0 3).withFetchWord 32 0xE8000000))
    (fun t => t.mbox[0] == 0 && t.fault == none) = true := by decide

theorem witness_BridgeAgentPerformsTheOldestWrite :
    (onSchedule .bridge (State.reset.post ⟨0, 7, .enClear⟩)).Takes .bridge []
    ∧ (State.reset.post ⟨0, 7, .enClear⟩).bq = ⟨0, 7, .enClear⟩ :: [] ∧ State.reset.bq = []
    ∧ (State.reset.post ⟨0, 7, .enClear⟩).bridges[0]? = some (Bridge.powerOn 8) ∧ 7 < 64 :=
  ⟨witness_takes _ _ rfl rfl, by decide, rfl, by decide, by decide⟩

theorem witness_FlushEqualsTheBridgeAgentsSteps :
    let s := onSchedule .bridge (State.reset.post ⟨0, 7, .enSet⟩)
    cfgWellFormed s.cfg = true ∧ s.fault = none ∧ s.sched = List.replicate s.bq.length (.agent .bridge) ++ [] :=
  ⟨by decide, rfl, rfl⟩

theorem witness_DeviceAgentAssertsAndRecords :
    (onSchedule (.devAssert 41) State.reset).Takes (.devAssert 41) []
    ∧ State.reset.cfg.sourceLines.getLsbD (41 : Line).val = true
    ∧ State.reset.cfg.sourceLines.getLsbD (42 : Line).val = false
    ∧ (onSchedule (.devCause 1) State.reset).Takes (.devCause 1) [] :=
  ⟨witness_takes _ _ rfl rfl, by decide, by decide, witness_takes _ _ rfl rfl⟩

theorem witness_offsetsDistinct : OffsetsDistinct cfg0 := by
  unfold OffsetsDistinct
  decide

/-- A narrow, a misaligned, a status, a cause, a last mask register, and an absent address. -/
theorem witness_AddressLevelReads (a : Access) :
    (running (.access a)).Fetches 0 genericDraw [] (.access a) ∧ OffsetsDistinct (running (.access a)).cfg
    ∧ ¬ ((4 : Nat) = 8 ∧ 0 % 8 = 0) ∧ ¬ ((8 : Nat) = 8 ∧ 4 % 8 = 0)
    ∧ (cfg0.heartBase + cfg0.offStatus) % 8 = 0 ∧ (cfg0.heartBase + cfg0.offCause) % 8 = 0
    ∧ (((1 : CpuId).val < cfg0.ncpu) ∧ some (0x0FF10008 - cfg0.heartBase) = cfg0.offMask[(1 : CpuId).val]?)
    ∧ (∀ k : CpuId, k.val < cfg0.ncpu → some (0x0FF10010 - cfg0.heartBase) ≠ cfg0.offMask[k.val]?)
    ∧ 0x0FF10010 ≠ cfg0.heartBase + cfg0.offStatus ∧ 0x0FF10010 ≠ cfg0.heartBase + cfg0.offCause :=
  ⟨witness_fetches _, witness_offsetsDistinct, by decide, by decide, by decide, by decide, by decide,
    by decide, by decide, by decide⟩

theorem witness_AddressLevelWrites (a : Access) :
    (running (.access a)).Fetches 0 genericDraw [] (.access a) ∧ OffsetsDistinct (running (.access a)).cfg
    ∧ (cfg0.heartBase + cfg0.offSet) % 8 = 0 ∧ (cfg0.heartBase + cfg0.offClear) % 8 = 0
    ∧ 0x0FF10010 ≠ cfg0.heartBase + cfg0.offSet ∧ 0x0FF10010 ≠ cfg0.heartBase + cfg0.offClear :=
  ⟨witness_fetches _, witness_offsetsDistinct, by decide, by decide, by decide, by decide⟩

/-- A code in no row; a word of a row; a word off its row; a data operand that must be zero. -/
theorem witness_DecodeFollowsTheOpcodeMap :
    printedMap.all (fun r => r.matchW.toNat / 0x8000000 != (0xFFFFFFFF : BitVec 32).toNat / 0x8000000) = true
    ∧ (⟨.assign, 0x40000000, 0xF8FFFF00, false⟩ : PrintedRow).matchW.toNat / 0x8000000
        = (0x470000FF : BitVec 32).toNat / 0x8000000
    ∧ (0x470000FF : BitVec 32) &&& 0xF8FFFF00 = 0x40000000
    ∧ ¬ (0x40000100 : BitVec 32) &&& 0xF8FFFF00 = 0x40000000 ∧ ¬ (1 : Word) = 0 := by decide

theorem witness_DecodeInvertsEncode : (Instr.bind 255 255 255).wellFormed = true := by decide

theorem witness_EncodeInvertsDecode : decode 0x60FFFFFF 0 = .ok (.bind 255 255 255) := by decide

theorem witness_StartupThenShutdownRestoresIdle : State.reset.owner[(63 : Line)] = none := by decide

/-- A state with a bound line, other than power-on, that meets the invariant. -/
theorem witness_inv (s : State) (h : s = boundState ∨ s = asserting) : s.Inv := by
  have hb : ∀ (l : Line) (b : BridgeSlot), boundState.bind[l] = some b →
      b.bridge < cfg0.nbridge ∧ b.slot < cfg0.nslot := by
    intro l b hl
    simp only [boundState, State.setBind_bind, Fin.getElem_fin, getElem_set_slot] at hl
    split at hl
    · cases hl; decide
    · simp [State.reset] at hl
  rcases h with rfl | rfl
  all_goals
    refine ⟨by decide, ?_, hb, ?_, ⟨by decide, ?_⟩, ?_, ?_, ?_, ⟨?_, ?_⟩, by unfold SelfExists; decide⟩
    · intro l c hl; simp [boundState, asserting, onSchedule, State.reset] at hl
    · intro p hp; simp [boundState, asserting, onSchedule, State.reset] at hp
    · intro b hb; simp [boundState, asserting, onSchedule, State.reset, cfg0] at hb; subst hb
      exact ⟨by decide, by simp [Bridge.powerOn]⟩
    · intro c hc; simp [boundState, asserting, onSchedule, State.reset]
    · intro c t hs; simp [boundState, asserting, onSchedule, State.reset] at hs
    · intro c rem l ph hd; simp [boundState, asserting, onSchedule, State.reset] at hd
    · intro code hc; simp [boundState, asserting, onSchedule, State.reset] at hc
    · intro _ c code; simp [boundState, asserting, onSchedule, State.reset]

theorem witness_BridgeBoundLineFollowsItsSlot : boundState.Inv ∧ boundState.owner[(20 : Line)] = none
    ∧ boundState.bind[(20 : Line)] = some ⟨0, 7⟩ :=
  ⟨witness_inv _ (.inl rfl), by decide, by decide⟩

/-- An Idle line, an enabled one and a masked one. -/
theorem witness_LineViewTransitions : lineView State.reset 63 = .idle
    ∧ lineView ((withRegs 0 0x20 0).setOwner 5 (some 0)) 5 = .enabled 0
    ∧ lineView (State.reset.setOwner 5 (some 0)) 5 = .masked 0 := by decide

theorem witness_ShutdownDuringServiceIsTolerated :
    (onSchedule (.cpu 0 genericDraw) (State.reset.setDisp 0 (.flow 0 7 .pre))).CpuTakes 0 genericDraw []
    ∧ (State.reset.setDisp 0 (.flow 0 7 .pre)).owner[(7 : Line)] = none
    ∧ (State.reset.setDisp 0 (.flow 0 7 .post)).disp[(0 : CpuId)] = .flow 0 7 .post :=
  ⟨witness_cpuTakes _ 0 (by decide) rfl rfl, by decide, by decide⟩

theorem witness_FaultsAreStickyStops : State.reset.fault = none
    ∧ (State.reset.raise .irqRange).fault = some .irqRange
    ∧ cfgWellFormed (State.reset.raise .irqRange).cfg = true := by decide

/-- Each way a configuration is ill formed. -/
theorem witness_IllFormedConfigurationsAreRefused :
    (∃ p ∈ ({ cfg0 with pin := [(42, 2)] } : Cfg).pin, cfg0.ncpu ≤ p.2.val)
    ∧ ¬ ({ cfg0 with ipiLines := [42, 42] } : Cfg).ipiLines.Nodup
    ∧ (∃ l : Line, (errMask.getLsbD l.val
        && ({ cfg0 with hcntMask := 0x8000000000000000 } : Cfg).hcntMask.getLsbD l.val) = true)
    ∧ ({ cfg0 with callBit := 0 } : Cfg).callBit = reschedBit
    ∧ ({ cfg0 with cpuTimerIrq := 63 } : Cfg).cpuTimerIrq < 64 := by decide

/-- A command and a word that does not decode; an entry between commands, Idle and busy, on the last CPU; a
delivered entry on a busy CPU. -/
theorem witness_StepRunsTheDecodedCommand :
    (running (.command 0x8000002A 0)).Fetches 0 genericDraw [] (.command 0x8000002A 0)
    ∧ decode 0x8000002A 0 = .ok (.startup 42)
    ∧ (running (.command 0 0)).Fetches 0 genericDraw [] (.command 0 0)
    ∧ decode 0 0 = .error .illegalOpcode
    ∧ (onSchedule (.entry 1 genericDraw) State.reset).Takes (.entry 1 genericDraw) []
    ∧ (1 : CpuId).val < State.reset.cfg.ncpu ∧ State.reset.disp[(1 : CpuId)] = .idle
    ∧ (onSchedule (.entry 1 genericDraw) busyState).Takes (.entry 1 genericDraw) []
    ∧ busyState.disp[(1 : CpuId)] ≠ .idle
    ∧ cfgWellFormed (delivering busyState).cfg = true ∧ (delivering busyState).fault = none
    ∧ (delivering busyState).sched = .deliver 1 genericDraw :: [] :=
  ⟨witness_fetches _, by decide, witness_fetches _, by decide, witness_takes _ _ rfl rfl, by decide, by decide,
    witness_takes _ _ rfl rfl, by decide, by decide, rfl, rfl⟩

theorem witness_EveryStepKeepsTheInvariant : asserting.Inv ∧ ∃ t, step asserting = .next t :=
  ⟨witness_inv _ (.inr rfl), _, step_of_takes (witness_takes _ _ rfl rfl)⟩

/-- A step (`witness_wholeMachineRules`) and a command in a state whose FAULT is set. -/
theorem witness_HistoryIsAppendOnly : (∃ t, exec .rdStatus (State.reset.raise .irqRange) = .next t)
    ∧ (State.reset.raise .irqRange).fault = some .irqRange :=
  ⟨exec_answers _ _, by decide⟩

/-- For HistoryIsAppendOnly, OnlyTheDeviceAgentChangesCause, BindingsAreNeverRemoved and
PrivateStateBelongsToItsCpu: a step of the device agent from a state with a binding and a cause bit. -/
theorem witness_wholeMachineRules : ∃ t, step (asserting.causeSet 1) = .next t
    ∧ (asserting.causeSet 1).bind[(20 : Line)] = some ⟨0, 7⟩
    ∧ (asserting.causeSet 1).cause.getLsbD (0 : Line).val = true
    ∧ (∀ v, (asserting.causeSet 1).nextScheduled ≠ .agent (.devCause v))
    ∧ ∀ (c : CpuId) (x : Draw), (asserting.causeSet 1).nextScheduled ≠ .agent (.cpu c x)
      ∧ (asserting.causeSet 1).nextScheduled ≠ .agent (.entry c x)
      ∧ (asserting.causeSet 1).nextScheduled ≠ .deliver c x :=
  ⟨_, step_of_takes (witness_takes (.devAssert 5) (boundState.causeSet 1) rfl rfl), by decide, by decide,
    by simp [asserting, onSchedule, State.nextScheduled], by simp [asserting, onSchedule, State.nextScheduled]⟩

/-- A step that changes an owner: `assign 42, 1` from the program of CPU 0. -/
theorem witness_OwnersChangeOnlyByTheirCommands_step :
    leaves (step (running (.command 0x4100002A 0))) (fun t =>
      decide (t.owner[(42 : Line)] ≠ (running (.command 0x4100002A 0)).owner[(42 : Line)])) = true := by decide

theorem witness_OwnersChangeOnlyByTheirCommands : (∃ t, exec (.ack 63) State.reset = .next t)
    ∧ (Instr.ack 63).op ∉ [Op.startup, .assign, .shutdown, .release, .ctrlInit]
    ∧ (Instr.assign 42 1).op ∈ [Op.startup, .assign]
    ∧ (State.reset.setOwner 42 (some 1)).owner[(42 : Line)] = some 1
    ∧ (Instr.release 42).op ∈ [Op.shutdown, .release, .ctrlInit] :=
  ⟨⟨_, exec_ack State.reset 63⟩, by decide, by decide, by decide, by decide⟩

/-- MASK of the last line, owned by CPU 1: another line's bit at the owner, and the line's bit elsewhere, are
not named; the line's bit at the owner is. -/
theorem witness_ControllerCommandsChangeOneMaskBit :
    let s := State.reset.setOwner 63 (some 1)
    (∃ t, exec (.mask 63) s = .next t)
    ∧ ¬ MayChangeMaskBit s 1 62 (.mask 63) ∧ ¬ MayChangeMaskBit s 0 63 (.mask 63)
    ∧ MayChangeMaskBit s 1 63 (.mask 63) ∧ (Instr.mask 63).op ∉ [Op.wrMask, .ctrlInit, .cpuReset]
    ∧ MayChangeMaskBit State.reset 1 43 (.startup 43) ∧ ¬ MayChangeMaskBit State.reset 0 43 (.startup 43) := by
  refine ⟨exec_answers _ _, ?_, ?_, ?_, by decide, ?_, ?_⟩ <;> simp only [MayChangeMaskBit] <;> decide

theorem witness_EveryStepConservesTheDispatchList :
    let s := onSchedule (.cpu 0 genericDraw) (State.reset.setDisp 0 (.scan 5))
    s.disp[(0 : CpuId)].scanning = true ∧ ∃ t, step s = .next t :=
  ⟨by decide, _, step_of_busy (witness_cpuTakes (State.reset.setDisp 0 (.scan 5)) 0 (by decide) rfl rfl)
    (by decide)⟩

theorem witness_UninterruptedScanDispatchesItsSnapshot :
    let s := { State.reset.setDisp 0 (.scan 5) with
      sched := List.replicate (4 * (bitsDesc 5).length + 1) (.agent (.cpu 0 genericDraw)) }
    cfgWellFormed s.cfg = true ∧ s.fault = none ∧ (0 : CpuId).val < s.cfg.ncpu
    ∧ s.disp[(0 : CpuId)] = .scan 5
    ∧ s.sched = List.replicate (4 * (bitsDesc 5).length + 1) (.agent (.cpu 0 genericDraw)) ++ [] :=
  ⟨by decide, rfl, by decide, by decide, (List.append_nil _).symm⟩

/-- Line 20 on slot 7, Idle after its SHUTDOWN: it may itself be the line started next. -/
theorem witness_PostedDisableIsPerformedByALaterStartup : boundState.Inv
    ∧ boundState.bind[(20 : Line)] = some ⟨0, 7⟩
    ∧ leaves (exec (.shutdown 20) boundState) (fun t =>
      t.owner[(20 : Line)] == none && t.bind[(20 : Line)] == some ⟨0, 7⟩) = true
    ∧ (boundState.setOwner 20 (some 1)).owner[(20 : Line)] = some 1 :=
  ⟨witness_inv _ (.inl rfl), by decide, by decide, by decide⟩

end Sys2Proof.Tests
end

/-! A command word compared with the printed columns `match` and `mask` is its operation code and its unused fields compared one by one (30_encoding.md R80, R83-R85); `decode` compares the fields, so it follows the printed map. -/
section
namespace Sys2Proof

open Machine

/-! ### Words and their fields -/

/-- A word is determined by its operation code and its fields (R80). -/
theorem word_eq_iff_fields (d : Word) {w v : BitVec 32} :
    w = v ↔ opcField w = opcField v ∧ fieldsOf w d = fieldsOf v d := by
  constructor
  · rintro rfl
    exact ⟨rfl, rfl⟩
  · rintro ⟨hopc, hfields⟩
    rw [← packWord_fieldsOf w d, hopc, hfields, packWord_fieldsOf]

theorem opcField_lt (w : BitVec 32) : opcField w < 32 := Nat.div_lt_of_lt_mul w.isLt

/-- The `k` bits of a masked word from bit `n` up are those of the word, masked. -/
theorem toNat_and_bits (w m : BitVec 32) (n k : Nat) :
    (w &&& m).toNat / 2 ^ n % 2 ^ k = (w.toNat / 2 ^ n % 2 ^ k) &&& (m.toNat / 2 ^ n % 2 ^ k) := by
  rw [BitVec.toNat_and, Nat.and_div_two_pow, Nat.and_mod_two_pow]

theorem opcField_and (w m : BitVec 32) : opcField (w &&& m) = opcField w &&& opcField m :=
  (congrArg (· / 2 ^ 27) (BitVec.toNat_and w m)).trans Nat.and_div_two_pow

/-- The fields of a masked word are the fields masked. -/
theorem fieldsOf_and (w m : BitVec 32) (d : Word) :
    fieldsOf (w &&& m) d =
      ⟨(fieldsOf w d).c &&& (fieldsOf m d).c, (fieldsOf w d).b &&& (fieldsOf m d).b,
        (fieldsOf w d).slot &&& (fieldsOf m d).slot, (fieldsOf w d).l &&& (fieldsOf m d).l, d⟩ := by
  have hc : (fieldsOf (w &&& m) d).c = (fieldsOf w d).c &&& (fieldsOf m d).c :=
    Fin.ext ((toNat_and_bits w m 24 3).trans (Fin.and_val (fieldsOf w d).c (fieldsOf m d).c).symm)
  have hl : (fieldsOf (w &&& m) d).l = (fieldsOf w d).l &&& (fieldsOf m d).l :=
    (congrArg (· % 2 ^ 8) (BitVec.toNat_and w m)).trans Nat.and_mod_two_pow
  exact (Fields.mk.injEq ..).mpr ⟨hc, toNat_and_bits w m 16 8, toNat_and_bits w m 8 8, hl, rfl⟩

/-! ### The columns `match` and `mask` of R84 -/

/-- What the column `mask` holds in each field: zeros where the command uses it, ones elsewhere. -/
def OpcodeRow.maskFields (r : OpcodeRow) (d : Word) : Fields :=
  ⟨if r.usesC then 0 else 7, if r.usesB then 0 else 0xFF, if r.usesS then 0 else 0xFF,
    if r.usesL then 0 else 0xFF, d⟩

theorem OpcodeRow.maskWord_eq_packWord (r : OpcodeRow) (d : Word) :
    r.maskWord = packWord 31 (r.maskFields d) := by
  obtain ⟨op, opc, c, b, s, l, usesD⟩ := r
  cases c <;> cases b <;> cases s <;> cases l <;> rfl

theorem OpcodeRow.maskFields_lt (r : OpcodeRow) (d : Word) :
    (r.maskFields d).b < 256 ∧ (r.maskFields d).slot < 256 ∧ (r.maskFields d).l < 256 := by
  refine ⟨?_, ?_, ?_⟩ <;> simp only [maskFields] <;> split <;> decide

theorem OpcodeRow.opcField_maskWord (r : OpcodeRow) : opcField r.maskWord = 31 := by
  obtain ⟨hb, hs, hl⟩ := r.maskFields_lt 0
  rw [r.maskWord_eq_packWord 0, opcField_packWord (by decide) hb hs hl]

theorem OpcodeRow.fieldsOf_maskWord (r : OpcodeRow) (d : Word) :
    fieldsOf r.maskWord d = r.maskFields d := by
  obtain ⟨hb, hs, hl⟩ := r.maskFields_lt d
  rw [r.maskWord_eq_packWord d]
  exact fieldsOf_packWord (f := r.maskFields d) (by decide) hb hs hl

theorem Op.opcField_matchWord (op : Op) : opcField op.row.matchWord = op.row.opc :=
  opcField_packWord (f := ⟨0, 0, 0, 0, 0⟩) (opc_lt op) (by decide) (by decide) (by decide)

theorem Op.fieldsOf_matchWord (op : Op) (d : Word) : fieldsOf op.row.matchWord d = ⟨0, 0, 0, 0, d⟩ :=
  fieldsOf_packWord (f := ⟨0, 0, 0, 0, d⟩) (opc_lt op) (by simp) (by simp) (by simp)

/-- A field under its part of the mask is zero exactly when the command uses it or it is zero. -/
theorem masked_byte_eq_zero_iff {n : Nat} (hn : n < 256) (used : Bool) :
    (n &&& if used then 0 else 0xFF) = 0 ↔ used = true ∨ n = 0 := by
  cases used
  · simp [Nat.and_two_pow_sub_one_of_lt_two_pow (n := 8) hn]
  · simp

theorem masked_cpu_eq_zero_iff (c : CpuId) (used : Bool) :
    (c &&& if used then 0 else 7) = 0 ↔ used = true ∨ c = 0 := by
  revert c used
  decide

/-- R83 in the two forms that the source prints: a word with a row's operation code meets the row's
`match` under its `mask`, and `d` is zero for a command without data, exactly when every field the row
does not list is zero. -/
theorem printed_row_matches_iff_reservedZero {op : Op} {w : BitVec 32} (d : Word)
    (hopc : opcField w = op.row.opc) :
    (w &&& op.row.maskWord = op.row.matchWord ∧ (op.row.usesD = true ∨ d = 0))
      ↔ op.row.reservedZero (fieldsOf w d) = true := by
  have hopcMasked : opcField w &&& 31 = op.row.opc := by
    rw [Nat.and_two_pow_sub_one_of_lt_two_pow (n := 5) (opcField_lt w), hopc]
  have hb : (fieldsOf w d).b < 256 := Nat.mod_lt _ (by decide)
  have hs : (fieldsOf w d).slot < 256 := Nat.mod_lt _ (by decide)
  have hl : (fieldsOf w d).l < 256 := Nat.mod_lt _ (by decide)
  have hd : (fieldsOf w d).d = d := rfl
  simp only [word_eq_iff_fields d, opcField_and, OpcodeRow.opcField_maskWord, op.opcField_matchWord,
    hopcMasked, fieldsOf_and, OpcodeRow.fieldsOf_maskWord, op.fieldsOf_matchWord, OpcodeRow.maskFields,
    Fields.mk.injEq, masked_cpu_eq_zero_iff, masked_byte_eq_zero_iff hb, masked_byte_eq_zero_iff hs,
    masked_byte_eq_zero_iff hl, OpcodeRow.reservedZero, hd, Bool.and_eq_true, Bool.or_eq_true,
    beq_iff_eq, true_and, and_true, and_assoc]

/-! ### The printed map -/

/-- The printed row of a command. -/
def Op.printedRow (op : Op) : PrintedRow := ⟨op, op.row.matchWord, op.row.maskWord, op.row.usesD⟩

theorem printedMap_eq_map : printedMap = Op.all.map Op.printedRow := rfl

theorem Op.mem_all (op : Op) : op ∈ Op.all := by cases op <;> decide

theorem forall_mem_printedMap {P : PrintedRow → Prop} :
    (∀ r ∈ printedMap, P r) ↔ ∀ op : Op, P op.printedRow := by
  simp [printedMap_eq_map, Op.mem_all]

theorem Op.printedRow_opc (op : Op) : op.printedRow.matchW.toNat / 0x8000000 = op.row.opc :=
  op.opcField_matchWord

/-! ### The decoder, a case at a time -/

/-- An operation code of no command (R85). -/
theorem decode_of_no_row {w : BitVec 32} (d : Word) (h : ∀ op : Op, op.row.opc ≠ opcField w) :
    decode w d = .error .illegalOpcode := by
  simp only [decode, (find_none_iff _).2 h]

/-- The operation code of a command: the fields it does not use decide (R82, R83). -/
theorem decode_of_row {op : Op} {w : BitVec 32} (d : Word) (hopc : opcField w = op.row.opc) :
    decode w d = if op.row.reservedZero (fieldsOf w d) then .ok (op.build (fieldsOf w d))
      else .error .reservedField := by
  have hop : op.row.op = op := by cases op <;> rfl
  simp only [decode, hopc, find_row, hop]

/-- The illegal codes of R85 are those that no command has. -/
theorem mem_illegal_codes_iff : ∀ n < 32,
    n ∈ [0x00, 0x07, 0x0B, 0x0E, 0x0F, 0x16, 0x17, 0x1B, 0x1E, 0x1F] ↔ ∀ op ∈ Op.all, op.row.opc ≠ n := by
  decide

/-- Settles O31: the printed row of a command compares the operation code and the unused fields that
`decode` looks at. -/
theorem decodeFollowsTheOpcodeMap : Obligations.DecodeFollowsTheOpcodeMap := by
  unfold Obligations.DecodeFollowsTheOpcodeMap
  simp only [forall_mem_printedMap, Op.printedRow_opc]
  refine ⟨fun n hn => ?_, fun w d => ⟨decode_of_no_row d, fun op hopc => ?_⟩⟩
  · simpa [Op.mem_all] using mem_illegal_codes_iff n hn
  · have hrow := printed_row_matches_iff_reservedZero d hopc.symm
    refine ⟨fun hmatch => ⟨op.build (fieldsOf w d), ?_, build_op op _⟩, fun hoff => ?_⟩
    · rw [decode_of_row d hopc.symm, if_pos (hrow.1 hmatch)]
    · rw [decode_of_row d hopc.symm, if_neg (mt hrow.2 hoff)]

end Sys2Proof
end

/-! The register access commands (40_register_access.md R100-R105). Each one is a change of one register, or none, followed by the completion of the command; the two on a mask register first check that their CPU exists (30_encoding.md R81). -/
section
namespace Sys2Proof.Machine

/-! ### The word of a command whose only field is `C` -/

/-- With no other field in use, a command word is its operation code and its field `C` (R80). -/
theorem packWord_cpuField (opc : Nat) (c : CpuId) (d : Word) :
    packWord opc ⟨c, 0, 0, 0, d⟩ = BitVec.ofNat 32 (0x8000000 * opc + 0x1000000 * c.val) := rfl

theorem encode_rdMask (c : CpuId) :
    encode (.rdMask c) = (BitVec.ofNat 32 (0x20000000 + 0x1000000 * c.val), 0) :=
  Prod.ext (packWord_cpuField 0x04 c 0) rfl

theorem encode_wrMask (c : CpuId) (d : Word) :
    encode (.wrMask c d) = (BitVec.ofNat 32 (0x28000000 + 0x1000000 * c.val), d) :=
  Prod.ext (packWord_cpuField 0x05 c d) rfl

/-! ### Completion, and the range check of `C` -/

/-- Where a command's effect `t` keeps the issuing CPU, completing it is what the claims call answered. -/
theorem State.complete_eq_answered {s t : State} (hself : t.self = s.self) (op : Op) (v : RespValue) :
    t.complete op v = s.answered t op v := by
  have hown : t.complete op v = t.answered t op v := rfl
  simp only [hown, State.answered, hself]

theorem withCpu_of_le {s : State} {c : CpuId} (h : s.cfg.ncpu ≤ c.val) (k : State) :
    withCpu c s k = s.raise .cpuRange :=
  if_neg (Nat.not_lt.2 h)

theorem withCpu_of_lt {s : State} {c : CpuId} (h : c.val < s.cfg.ncpu) (k : State) : withCpu c s k = k :=
  if_pos h

/-! ### The commands, each by its effect -/

section
variable (s : State) (c : CpuId) (d : Word)

theorem exec_rdStatus : exec .rdStatus s = .next (s.answered s .rdStatus (.word s.status)) := by
  simp only [exec, execRdStatus, State.complete_eq_answered (rfl : s.self = s.self)]

theorem exec_rdCause : exec .rdCause s = .next (s.answered s .rdCause (.word s.cause)) := by
  simp only [exec, execRdCause, State.complete_eq_answered (rfl : s.self = s.self)]

theorem exec_wrSet : exec (.wrSet d) s = .next (s.answered (s.statusSet d) .wrSet .unit) := by
  simp only [exec, execWrSet, State.complete_eq_answered (s.statusSet_self d)]

theorem exec_wrClear : exec (.wrClear d) s = .next (s.answered (s.statusClear d) .wrClear .unit) := by
  simp only [exec, execWrClear, State.complete_eq_answered (s.statusClear_self d)]

theorem exec_rdMask :
    exec (.rdMask c) s = .next (withCpu c s (s.answered s .rdMask (.word s.mask[c]))) := by
  simp only [exec, execRdMask, State.complete_eq_answered (rfl : s.self = s.self)]

theorem exec_wrMask :
    exec (.wrMask c d) s = .next (withCpu c s (s.answered (s.setMask c d) .wrMask .unit)) := by
  simp only [exec, execWrMask, State.complete_eq_answered (s.setMask_self c d)]

end

/-! ### The claims -/

/-- Settles O1: the reads complete with no effect before their response. -/
theorem readsRespondAndChangeNothing : Obligations.ReadsRespondAndChangeNothing := by
  unfold Obligations.ReadsRespondAndChangeNothing
  exact fun s => ⟨rfl, rfl, exec_rdStatus s, exec_rdCause s⟩

/-- Settles O2: the writes OR the operand into `S`, or AND its complement into it. -/
theorem setAndClearWritesActBitwise : Obligations.SetAndClearWritesActBitwise := by
  unfold Obligations.SetAndClearWritesActBitwise
  exact fun s d => ⟨rfl, rfl,
    ⟨s.status ||| d, exec_wrSet s d, fun _ => BitVec.getLsbD_or⟩,
    ⟨s.status &&& ~~~d, exec_wrClear s d, getLsbD_andNot s.status d⟩⟩

/-- Settles O3: the range check of `C` decides whether the command faults or acts on the register. -/
theorem maskRegisterCommands : Obligations.MaskRegisterCommands := by
  unfold Obligations.MaskRegisterCommands
  refine fun s c d => ⟨encode_rdMask c, encode_wrMask c d, fun habsent => ?_, fun hexists => ?_⟩
  · simp only [exec_rdMask, exec_wrMask, withCpu_of_le habsent, and_self]
  · rw [exec_rdMask, exec_wrMask, withCpu_of_lt hexists, withCpu_of_lt hexists]
    exact ⟨rfl, rfl⟩

end Sys2Proof.Machine
end

/-! The ownership and binding table commands ASSIGN, RELEASE, OWNER_OF and LOOKUP (41_ownership_binding.md R120-R122, R126). Each one checks its line, ASSIGN then its CPU (30_encoding.md R81), and completes after a change of one table entry, a `Violation` event, or none. -/
section
namespace Sys2Proof.Machine

/-! ### The words of the commands on a line -/

/-- With only the fields `C` and `L` in use, a command word is their sum with the operation code (R80). -/
theorem packWord_cpuLineFields (opc : Nat) (c : CpuId) (l : Nat) (d : Word) :
    packWord opc ⟨c, 0, 0, l, d⟩ = BitVec.ofNat 32 (0x8000000 * opc + 0x1000000 * c.val + l) := rfl

/-- With only the field `L` in use, a command word is its operation code and that field (R80). -/
theorem packWord_lineField (opc l : Nat) (d : Word) :
    packWord opc ⟨0, 0, 0, l, d⟩ = BitVec.ofNat 32 (0x8000000 * opc + l) :=
  packWord_cpuLineFields opc 0 l d

theorem encode_assign (l : Nat) (c : CpuId) :
    encode (.assign l c) = (BitVec.ofNat 32 (0x40000000 + 0x1000000 * c.val + l), 0) :=
  Prod.ext (packWord_cpuLineFields 0x08 c l 0) rfl

theorem encode_release (l : Nat) : encode (.release l) = (BitVec.ofNat 32 (0x48000000 + l), 0) :=
  Prod.ext (packWord_lineField 0x09 l 0) rfl

theorem encode_ownerOf (l : Nat) : encode (.ownerOf l) = (BitVec.ofNat 32 (0x50000000 + l), 0) :=
  Prod.ext (packWord_lineField 0x0A l 0) rfl

theorem encode_lookup (l : Nat) : encode (.lookup l) = (BitVec.ofNat 32 (0x68000000 + l), 0) :=
  Prod.ext (packWord_lineField 0x0D l 0) rfl

/-! ### The commands, each by its effect -/

section
variable (s : State)

/-- The outcome of a command whose handle is no line, whatever it does with a line (R81). -/
theorem next_withLine_of_le {l : Nat} (h : 64 ≤ l) (k : Line → State) :
    (.next (withLine l s k) : Out) = .next (s.raise .irqRange) :=
  congrArg _ (withLine_of_le s h k)

/-- ASSIGN to a CPU that does not exist. -/
theorem exec_assign_absentCpu (L : Line) {c : CpuId} (h : s.cfg.ncpu ≤ c.val) :
    exec (.assign L.val c) s = .next (s.raise .cpuRange) := by
  simp only [exec, execAssign, withLine_line, withCpu_of_le h]

/-- ASSIGN of an owned line. -/
theorem exec_assign_owned {L : Line} {c : CpuId} (hc : c.val < s.cfg.ncpu) (ho : s.owner[L] ≠ none) :
    exec (.assign L.val c) s = .next (s.answered (s.emit (.violation L)) .assign (.assigned false)) := by
  obtain ⟨o, ho⟩ := Option.ne_none_iff_exists'.1 ho
  simp only [exec, execAssign, withLine_line, withCpu_of_lt hc, ho, State.complete_eq_answered (s.emit_self _)]

/-- ASSIGN of an unowned line. -/
theorem exec_assign_unowned {L : Line} {c : CpuId} (hc : c.val < s.cfg.ncpu) (ho : s.owner[L] = none) :
    exec (.assign L.val c) s = .next (s.answered (s.setOwner L (some c)) .assign (.assigned true)) := by
  simp only [exec, execAssign, withLine_line, withCpu_of_lt hc, ho,
    State.complete_eq_answered (s.setOwner_self L (some c))]

theorem exec_release_answered (L : Line) :
    exec (.release L.val) s = .next (s.answered (s.setOwner L none) .release .unit) := by
  rw [exec_release, State.complete_eq_answered (s.setOwner_self L none)]

theorem exec_ownerOf (L : Line) :
    exec (.ownerOf L.val) s = .next (s.answered s .ownerOf (.owner s.owner[L])) := by
  simp only [exec, execOwnerOf, withLine_line, State.complete_eq_answered (rfl : s.self = s.self)]

theorem exec_lookup (L : Line) :
    exec (.lookup L.val) s = .next (s.answered s .lookup (.binding s.bind[L])) := by
  simp only [exec, execLookup, withLine_line, State.complete_eq_answered (rfl : s.self = s.self)]

end

/-! ### The claims -/

/-- Settles O4: after the two range checks, the line's entry of the ownership table decides between
recording the CPU and refusing it. -/
theorem assignRecordsOnlyAFirstOwner : Obligations.AssignRecordsOnlyAFirstOwner := by
  unfold Obligations.AssignRecordsOnlyAFirstOwner
  refine fun s l c => ⟨fun _ => encode_assign l c, fun hl => next_withLine_of_le s hl _,
    fun hl habsent => exec_assign_absentCpu s ⟨l, hl⟩ habsent, ?_⟩
  rintro L rfl hexists
  exact ⟨exec_assign_owned s hexists, exec_assign_unowned s hexists⟩

/-- Settles O5: the range check of the handle decides whether each command faults or acts on the line's
table entry. -/
theorem releaseOwnerOfAndLookup : Obligations.ReleaseOwnerOfAndLookup := by
  unfold Obligations.ReleaseOwnerOfAndLookup
  refine fun s l => ⟨fun _ => ⟨encode_release l, encode_ownerOf l, encode_lookup l⟩,
    fun hl => ⟨next_withLine_of_le s hl _, next_withLine_of_le s hl _, next_withLine_of_le s hl _⟩, ?_⟩
  rintro L rfl
  exact ⟨exec_release_answered s L, exec_ownerOf s L, exec_lookup s L⟩

end Sys2Proof.Machine
end

/-! The controller commands SHUTDOWN, ACK, MASK, UNMASK, MASK_ACK, CTRL_INIT and CPU_RESET (42_controller.md R142-R155). Each one but CTRL_INIT checks its line or its CPU (30_encoding.md R81), and all complete after their effect. That an effect leaves the other fields alone is said by writing it as an update of those it changes. -/
section
namespace Sys2Proof.Machine

/-! ### The words of the commands -/

theorem encode_shutdown (l : Nat) : encode (.shutdown l) = (BitVec.ofNat 32 (0x88000000 + l), 0) :=
  Prod.ext (packWord_lineField 0x11 l 0) rfl

theorem encode_ack (l : Nat) : encode (.ack l) = (BitVec.ofNat 32 (0x90000000 + l), 0) :=
  Prod.ext (packWord_lineField 0x12 l 0) rfl

theorem encode_mask (l : Nat) : encode (.mask l) = (BitVec.ofNat 32 (0x98000000 + l), 0) :=
  Prod.ext (packWord_lineField 0x13 l 0) rfl

theorem encode_unmask (l : Nat) : encode (.unmask l) = (BitVec.ofNat 32 (0xA0000000 + l), 0) :=
  Prod.ext (packWord_lineField 0x14 l 0) rfl

theorem encode_maskAck (l : Nat) : encode (.maskAck l) = (BitVec.ofNat 32 (0xA8000000 + l), 0) :=
  Prod.ext (packWord_lineField 0x15 l 0) rfl

theorem encode_cpuReset (c : CpuId) :
    encode (.cpuReset c) = (BitVec.ofNat 32 (0xC8000000 + 0x1000000 * c.val), 0) :=
  Prod.ext (packWord_cpuField 0x19 c 0) rfl

/-! ### The effects, each as an update of the fields it changes -/

section
variable (s : State) (l : Line)

theorem State.maskLine_eq_update : s.maskLine l = { s with mask := (s.maskLine l).mask } := by
  apply State.ext <;> simp

theorem State.unmaskLine_eq_update : s.unmaskLine l = { s with mask := (s.unmaskLine l).mask } := by
  apply State.ext <;> simp

theorem State.maskAckLine_eq_update :
    s.maskAckLine l = { s with mask := (s.maskLine l).mask, status := (s.ackLine l).status } := by
  apply State.ext <;> simp

theorem State.stopLine_eq_update :
    s.stopLine l
      = { s with owner := s.owner.set l none, mask := (s.maskLine l).mask, bq := (s.stopLine l).bq } := by
  apply State.ext <;> simp

end

/-! ### What SHUTDOWN posts -/

section
variable (s : State)

/-- The bridge part of SHUTDOWN of an unbound line (R142). -/
theorem State.stopBridge_unbound {l : Line} (h : s.bind[l] = none) : s.stopBridge l = s := by
  simp only [State.stopBridge, h]

/-- The bridge part of SHUTDOWN of a bound line (R142). -/
theorem State.stopBridge_bound {l : Line} {b : BridgeSlot} (h : s.bind[l] = some b) :
    s.stopBridge l = s.post ⟨b.bridge, b.slot, .enClear⟩ := by
  simp only [State.stopBridge, h]

/-- SHUTDOWN of an unbound line posts nothing (R142). -/
theorem State.stopLine_bq_unbound {l : Line} (h : s.bind[l] = none) : (s.stopLine l).bq = s.bq := by
  rw [State.stopLine, State.stopBridge_unbound _ (by simpa using h)]
  simp

/-- SHUTDOWN of a bound line posts the slot-enable clear behind the earlier writes, which stay posted
(R142). -/
theorem State.stopLine_bq_bound {l : Line} {b : BridgeSlot} (h : s.bind[l] = some b) :
    (s.stopLine l).bq = s.bq ++ [⟨b.bridge, b.slot, .enClear⟩] := by
  rw [State.stopLine, State.stopBridge_bound _ (b := b) (by simpa using h)]
  simp

end

/-! ### The commands, each by its effect -/

section
variable (s : State) (l : Line)

theorem exec_shutdown_answered :
    exec (.shutdown l.val) s = .next (s.answered (s.stopLine l) .shutdown .unit) := by
  rw [exec_shutdown, State.complete_eq_answered (s.stopLine_self l)]

theorem exec_ack_answered : exec (.ack l.val) s = .next (s.answered (s.ackLine l) .ack .unit) := by
  rw [exec_ack, State.complete_eq_answered (s.ackLine_self l)]

theorem exec_mask_answered : exec (.mask l.val) s = .next (s.answered (s.maskLine l) .mask .unit) := by
  rw [exec_mask, State.complete_eq_answered (s.maskLine_self l)]

theorem exec_unmask_answered :
    exec (.unmask l.val) s = .next (s.answered (s.unmaskLine l) .unmask .unit) := by
  rw [exec_unmask, State.complete_eq_answered (s.unmaskLine_self l)]

theorem exec_maskAck_answered :
    exec (.maskAck l.val) s = .next (s.answered (s.maskAckLine l) .maskAck .unit) := by
  rw [exec_maskAck, State.complete_eq_answered (s.maskAckLine_self l)]

theorem exec_ctrlInit_answered :
    exec .ctrlInit s = .next (s.answered s.initController .ctrlInit .unit) := by
  simp only [exec, execCtrlInit, State.complete_eq_answered s.initController_self]

theorem exec_cpuReset (c : CpuId) :
    exec (.cpuReset c) s = .next (withCpu c s (s.answered (s.setMask c 0) .cpuReset .unit)) := by
  simp only [exec, execCpuReset, State.complete_eq_answered (s.setMask_self c 0)]

end

/-! ### The claims -/

/-- Settles O8: SHUTDOWN is its mask part, its bridge part and the clear of the owner; the binding decides
what the bridge part posts. -/
theorem shutdownMakesALineIdle : Obligations.ShutdownMakesALineIdle := by
  unfold Obligations.ShutdownMakesALineIdle
  refine fun s l => ⟨fun _ => encode_shutdown l, fun hl => next_withLine_of_le s hl _, ?_⟩
  rintro L rfl
  refine ⟨(s.maskLine L).mask, (s.stopLine L).bq, ?_, fun k i => s.maskLine_bit L i k,
    s.stopLine_bq_unbound, fun b => s.stopLine_bq_bound⟩
  rw [← s.stopLine_eq_update L, exec_shutdown_answered]

/-- Settles O9: ACK is one write of the line's bit to `CLEAR`. -/
theorem ackClearsOnlyItsPendingBit : Obligations.AckClearsOnlyItsPendingBit := by
  unfold Obligations.AckClearsOnlyItsPendingBit
  refine fun s l => ⟨fun _ => encode_ack l, fun hl => next_withLine_of_le s hl _, ?_⟩
  rintro L rfl
  exact ⟨(s.ackLine L).status, exec_ack_answered s L, s.ackLine_bit L⟩

/-- Settles O10: MASK and UNMASK are updates of the mask registers whose bits the owner decides. -/
theorem maskAndUnmaskReachOnlyTheOwner : Obligations.MaskAndUnmaskReachOnlyTheOwner := by
  unfold Obligations.MaskAndUnmaskReachOnlyTheOwner
  refine fun s l => ⟨rfl, rfl, fun _ => ⟨encode_mask l, encode_unmask l⟩,
    fun hl => ⟨next_withLine_of_le s hl _, next_withLine_of_le s hl _⟩, ?_⟩
  rintro L rfl
  refine ⟨⟨(s.maskLine L).mask, ?_, fun k i => s.maskLine_bit L i k⟩,
    ⟨(s.unmaskLine L).mask, ?_, fun k i => s.unmaskLine_bit L i k⟩⟩
  · rw [← s.maskLine_eq_update L, exec_mask_answered]
  · rw [← s.unmaskLine_eq_update L, exec_unmask_answered]

/-- Settles O11: MASK_ACK updates the mask registers as MASK does and the status register as ACK does. -/
theorem maskAckMasksAndAcknowledges : Obligations.MaskAckMasksAndAcknowledges := by
  unfold Obligations.MaskAckMasksAndAcknowledges
  refine fun s l => ⟨fun _ => encode_maskAck l, fun hl => next_withLine_of_le s hl _, ?_⟩
  rintro L rfl
  refine ⟨(s.maskLine L).mask, (s.ackLine L).status, ?_, fun k i => s.maskLine_bit L i k, s.ackLine_bit L⟩
  rw [← s.maskAckLine_eq_update L, exec_maskAck_answered]

/-- Settles O12: CTRL_INIT zeroes the mask register of each CPU that exists and empties the ownership table;
the range check of `C` decides whether CPU_RESET faults or zeroes its register. -/
theorem initAndCpuResetClearMasks : Obligations.InitAndCpuResetClearMasks := by
  unfold Obligations.InitAndCpuResetClearMasks
  refine fun s c => ⟨rfl, encode_cpuReset c,
    ⟨s.initController.mask, s.initController.owner, exec_ctrlInit_answered s, fun k hk => ?_, fun k hk => ?_,
      s.initController_owner_slot⟩, fun habsent => ?_, fun hexists => ?_⟩
  · exact (s.initController_mask_slot k).trans (if_pos hk)
  · exact (s.initController_mask_slot k).trans (if_neg (Nat.not_lt.2 hk))
  · rw [exec_cpuReset, withCpu_of_le habsent]
  · rw [exec_cpuReset, withCpu_of_lt hexists]
    rfl

end Sys2Proof.Machine
end

/-! The steps of a line's flow (43_dispatch.md R180-R182). A dispatcher step takes the effect of a command and writes `DISP`, where the command responds and advances its program's index; nothing else tells the two apart. -/
section
namespace Sys2Proof.Machine

theorem exec_ipiReceive_answered (s : State) :
    exec .ipiReceive s = .next (s.answered s.receive .ipiReceive (.word s.mbox[s.self])) := by
  simp only [exec, execIpiReceive, State.complete_eq_answered s.receive_self]

section
variable {s : State} {c : CpuId} {x : Draw} {rest : List Scheduled}

/-! ### The step of a CPU inside a flow, phase by phase -/

section
variable {rem : Word} {l : Line} (hcpu : s.CpuTakes c x rest)
include hcpu

/-- The first phase of a line with the operation MASK_ACK (R180). -/
theorem step_of_flowPre_maskAck (hd : s.disp[c] = .flow rem l .pre) (hop : cfgFlow s.cfg l = .maskAck) :
    step s = .next (((s.issued c x true rest).maskAckLine l).setDisp c (.flow rem l .handler)) := by
  rw [step_of_busy hcpu (by simp [hd])]
  simp only [State.dispatchStep, State.issued_disp, State.issued_self, hd, dispFlowPre, State.issued_cfg, hop]

/-- The first phase of a line with the operation ACK (R180). -/
theorem step_of_flowPre_ack (hd : s.disp[c] = .flow rem l .pre) (hop : cfgFlow s.cfg l = .ack) :
    step s = .next (((s.issued c x true rest).ackLine l).setDisp c (.flow rem l .handler)) := by
  rw [step_of_busy hcpu (by simp [hd])]
  simp only [State.dispatchStep, State.issued_disp, State.issued_self, hd, dispFlowPre, State.issued_cfg, hop]

/-- The handler phase, whose branch is decided by whether the line is an IPI line (R181). -/
theorem step_of_flowHandler (hd : s.disp[c] = .flow rem l .handler) :
    step s = .next (dispFlowHandler rem l (s.issued c x true rest)) := by
  rw [step_of_busy hcpu (by simp [hd])]
  simp only [State.dispatchStep, State.issued_disp, State.issued_self, hd]

/-- The handler phase of the IPI line of a CPU that exists (R181). -/
theorem step_of_flowHandler_ipiLine (hd : s.disp[c] = .flow rem l .handler)
    (hipi : ∃ c' : CpuId, c'.val < s.cfg.ncpu ∧ cfgIpiLine s.cfg c' = l) :
    step s = .next ((s.issued c x true rest).receive.setDisp c (.flow rem l .post)) := by
  have hline : cfgIsIpiLine s.cfg l = true := (isIpi_iff hcpu.takes.config l).2 hipi
  rw [step_of_flowHandler hcpu hd, dispFlowHandler, State.issued_cfg, if_pos hline, State.issued_self]

/-- The handler phase of a line that is no IPI line (R181). -/
theorem step_of_flowHandler_deviceLine (hd : s.disp[c] = .flow rem l .handler)
    (hdevice : ¬ ∃ c' : CpuId, c'.val < s.cfg.ncpu ∧ cfgIpiLine s.cfg c' = l) :
    step s = .next (((s.issued c x true rest).emit (.handle c l)).setDisp c (.flow rem l .post)) := by
  have hline : ¬ cfgIsIpiLine s.cfg l = true := mt (isIpi_iff hcpu.takes.config l).1 hdevice
  rw [step_of_flowHandler hcpu hd, dispFlowHandler, State.issued_cfg, if_neg hline, State.issued_self]

/-- The last phase (R182). -/
theorem step_of_flowPost (hd : s.disp[c] = .flow rem l .post) :
    step s = .next (((s.issued c x true rest).unmaskLine l).setDisp c (.scan rem)) := by
  rw [step_of_busy hcpu (by simp [hd])]
  simp only [State.dispatchStep, State.issued_disp, State.issued_self, hd, dispFlowPost]

end

/-! ### A step and a command with the same effect -/

section
variable {e : State} {i : Instr} {op : Op} {v : RespValue} {d : Disp}
variable (hstep : step s = .next (e.setDisp c d))
variable (hexec : exec i (s.issued c x true rest) = .next ((s.issued c x true rest).answered e op v))
variable (hindex : e.index = s.index) (hdisp : e.disp = s.disp)
include hstep hexec hindex hdisp

/-- A step that takes the effect `e` and writes `DISP[c]` is the command that completes with that effect,
its response and its advance of the program index taken back. -/
theorem step_eq_command_of_effect :
    ∃ t, exec i (s.issued c x true rest) = .next t ∧ t.hist = e.hist ++ [.resp c op v]
      ∧ step s = .next { t with hist := e.hist, index := s.index, disp := s.disp.set c d } := by
  refine ⟨_, hexec, rfl, ?_⟩
  rw [hstep, ← hindex, ← hdisp]
  rfl

/-- The same for an effect without an event. -/
theorem step_eq_command_of_silentEffect (hhist : e.hist = s.hist) :
    ∃ t, exec i (s.issued c x true rest) = .next t
      ∧ step s = .next { t with hist := s.hist, index := s.index, disp := s.disp.set c d } := by
  obtain ⟨t, hcommand, -, hsame⟩ := step_eq_command_of_effect hstep hexec hindex hdisp
  exact ⟨t, hcommand, hhist ▸ hsame⟩

end
end

/-! ### The claim -/

/-- Settles O18: the phase, the line's flow operation and whether the line is an IPI line choose the step's
effect, and the command named completes with the same one. -/
theorem flowStepsEqualTheirCommands : Obligations.FlowStepsEqualTheirCommands := by
  unfold Obligations.FlowStepsEqualTheirCommands
  refine fun s c x rest rem l hcpu =>
    ⟨fun hpre => ?_, fun hhandler => ⟨fun hipi => ?_, fun hdevice => ?_⟩, fun hpost => ?_⟩
  · cases hop : cfgFlow s.cfg l with
    | maskAck =>
      exact step_eq_command_of_silentEffect (step_of_flowPre_maskAck hcpu hpre hop)
        (exec_maskAck_answered _ l) (by simp) (by simp) (by simp)
    | ack =>
      exact step_eq_command_of_silentEffect (step_of_flowPre_ack hcpu hpre hop)
        (exec_ack_answered _ l) (by simp) (by simp) (by simp)
  · obtain ⟨t, hcommand, hresp, hsame⟩ := step_eq_command_of_effect
      (step_of_flowHandler_ipiLine hcpu hhandler hipi) (exec_ipiReceive_answered _) (by simp) (by simp)
    exact ⟨t, _, hcommand, hresp, hsame⟩
  · exact step_of_flowHandler_deviceLine hcpu hhandler hdevice
  · exact step_eq_command_of_silentEffect (step_of_flowPost hcpu hpost)
      (exec_unmask_answered _ l) (by simp) (by simp) (by simp)

end Sys2Proof.Machine
end

/-! The first phase of IPI_SEND (44_ipi.md R200). It checks that the target CPU exists (30_encoding.md R81), ORs the actions into the target's mailbox and records in `SEND` the assertion that its second phase makes (R201). -/
section
namespace Sys2Proof.Machine

theorem encode_ipiSend (c : CpuId) (d : Word) :
    encode (.ipiSend c d) = (BitVec.ofNat 32 (0xE0000000 + 0x1000000 * c.val), d) :=
  Prod.ext (packWord_cpuField 0x1C c d) rfl

/-- The effect neither responds nor advances the program index (R200). -/
theorem exec_ipiSend (s : State) (c : CpuId) (d : Word) :
    exec (.ipiSend c d) s = .next (withCpu c s
      { s with mbox := s.mbox.set c (s.mbox[c] ||| d), send := s.send.set s.self (.asserting c) }) := by
  simp only [exec, execIpiSend, State.setMbox, State.setSend]

/-- Settles O21: the range check of `C` decides whether the command faults or posts the actions, and the
mailbox it leaves is the OR of the two words. -/
theorem ipiSendPostsToTheMailbox : Obligations.IpiSendPostsToTheMailbox := by
  unfold Obligations.IpiSendPostsToTheMailbox
  refine fun s c d => ⟨encode_ipiSend c d, rfl, rfl, fun habsent => ?_,
    fun hexists => ⟨s.mbox[c] ||| d, ?_, fun _ => BitVec.getLsbD_or⟩⟩
  · rw [exec_ipiSend, withCpu_of_le habsent]
  · rw [exec_ipiSend, withCpu_of_lt hexists]

end Sys2Proof.Machine
end

/-! Faults (60_exceptions.md R221). `FAULT` is sticky: the first `raise` sets it, a later one leaves it, and each one appends its event. `step` reads it before the schedule, so a faulted machine stops there. -/
section
namespace Sys2Proof.Machine

/-- The first fault of a run records its code. -/
theorem State.raise_of_unfaulted {s : State} (h : s.fault = none) (code : FaultCode) :
    s.raise code = { s with fault := some code, hist := s.hist ++ [.fault s.self code] } := by
  rw [State.raise, h, Option.none_or]

/-- A fault after the first leaves the recorded code. -/
theorem State.raise_of_faulted {s : State} {code' : FaultCode} (h : s.fault = some code') (code : FaultCode) :
    s.raise code = { s with hist := s.hist ++ [.fault s.self code] } := by
  rw [State.raise, h, Option.some_or, ← h]

/-- The step of a faulted machine under a well-formed configuration, whatever its schedule. -/
theorem step_of_faulted {s : State} {code : FaultCode} (hcfg : cfgWellFormed s.cfg = true)
    (hfault : s.fault = some code) : step s = .fault (.stopped code) := by
  simp only [step, if_pos hcfg, hfault]

/-- Settles O41: whether `FAULT` is set decides what `raise` does with its code, and a set one stops every
step. -/
theorem faultsAreStickyStops : Obligations.FaultsAreStickyStops := by
  unfold Obligations.FaultsAreStickyStops
  exact ⟨fun _ code hnone => State.raise_of_unfaulted hnone code,
    fun _ code _ hsome => State.raise_of_faulted hsome code,
    fun _ _ hcfg hsome => step_of_faulted hcfg hsome⟩

end Sys2Proof.Machine
end

/-! Encoding and decoding invert each other (30_encoding.md R80-R86): packing and reading a word lose no field, and a field that a command does not use is zero on both sides. -/
section
namespace Sys2Proof

/-- The fields that a command leaves unused are zero (R83). -/
theorem Instr.reservedZero_fields (i : Instr) : i.op.row.reservedZero i.fields = true := by
  cases i <;> simp [Instr.op, Op.row, Instr.fields, OpcodeRow.reservedZero]

theorem Instr.build_fields (i : Instr) : i.op.build i.fields = i := by
  cases i <;> rfl

/-- A command built from fields lays them out again, provided those it does not use are zero. -/
theorem Op.fields_build {op : Op} {f : Fields} (hzero : op.row.reservedZero f = true) :
    (op.build f).fields = f := by
  obtain ⟨c, b, slot, l, d⟩ := f
  cases op <;> simp_all [Op.row, OpcodeRow.reservedZero, Op.build, Instr.fields]

/-- A command built from fields read off a word is well formed: each field is a number of its width. -/
theorem Op.wellFormed_build_fieldsOf (op : Op) (w : BitVec 32) (d : Word) :
    (op.build (fieldsOf w d)).wellFormed = true := by
  have hb : (fieldsOf w d).b < 256 := Nat.mod_lt _ (by decide)
  have hs : (fieldsOf w d).slot < 256 := Nat.mod_lt _ (by decide)
  have hl : (fieldsOf w d).l < 256 := Nat.mod_lt _ (by decide)
  cases op <;> simp [Op.build, Instr.wellFormed, fitsByte, hb, hs, hl]

/-- A pair that decodes holds the operation code of a row, and zeros where the row has no field (R82). -/
theorem decode_eq_ok {w : BitVec 32} {d : Word} {i : Instr} (h : decode w d = .ok i) :
    ∃ op : Op, opcField w = op.row.opc ∧ op.row.reservedZero (fieldsOf w d) = true
      ∧ i = op.build (fieldsOf w d) := by
  by_cases hrow : ∃ op : Op, op.row.opc = opcField w
  · obtain ⟨op, hopc⟩ := hrow
    rw [decode_of_row d hopc.symm] at h
    split at h
    · next hzero => cases h; exact ⟨op, hopc.symm, hzero, rfl⟩
    · cases h
  · rw [decode_of_no_row d (not_exists.1 hrow)] at h
    cases h

/-- Settles O32: the word of a command carries its operation code and its fields, from which the decoder
builds the command again. -/
theorem decodeInvertsEncode : Obligations.DecodeInvertsEncode := by
  unfold Obligations.DecodeInvertsEncode
  intro i hwf
  obtain ⟨hopc, hfields, hzero⟩ := Laws.Carried.of_reservedZero i.reservedZero_fields hwf
  rw [decode_of_row _ hopc, hfields, if_pos hzero, i.build_fields]

/-- Settles O33: what a pair decodes to is built from its fields, and packing those gives the word back. -/
theorem encodeInvertsDecode : Obligations.EncodeInvertsDecode := by
  unfold Obligations.EncodeInvertsDecode
  intro w d i h
  obtain ⟨op, hopc, hzero, rfl⟩ := decode_eq_ok h
  refine ⟨op.wellFormed_build_fieldsOf w d, ?_⟩
  rw [encode, build_op, Op.fields_build hzero, ← hopc, packWord_fieldsOf]
  rfl

/-- Settles O34: the assembler, the encoder and the decoder are evaluated on the eight lines of R86. -/
theorem workedEncodingsDecode : Obligations.WorkedEncodingsDecode := by
  unfold Obligations.WorkedEncodingsDecode
  decide

end Sys2Proof
end

/-! BIND and STARTUP (41_ownership_binding.md R125; 42_controller.md R140, R141, R156). Each checks its operands first (30_encoding.md R81); the binding or the owner recorded for the line then decides the outcome. -/
section
namespace Sys2Proof.Machine

/-! ### The words of the commands -/

/-- With every field but `C` in use, a command word is their sum with the operation code (R80). -/
theorem packWord_bindFields (opc b slot l : Nat) (d : Word) :
    packWord opc ⟨0, b, slot, l, d⟩ = BitVec.ofNat 32 (0x8000000 * opc + 0x10000 * b + 0x100 * slot + l) := rfl

theorem encode_bind (l b slot : Nat) :
    encode (.bind l b slot) = (BitVec.ofNat 32 (0x60000000 + 0x10000 * b + 0x100 * slot + l), 0) :=
  Prod.ext (packWord_bindFields 0x0C b slot l 0) rfl

theorem encode_startup (l : Nat) : encode (.startup l) = (BitVec.ofNat 32 (0x80000000 + l), 0) :=
  Prod.ext (packWord_lineField 0x10 l 0) rfl

/-! ### BIND, an outcome at a time -/

section
variable (s : State) {L : Line} {b slot : Nat}

theorem exec_bind_absentBridge (hb : s.cfg.nbridge ≤ b) :
    exec (.bind L.val b slot) s = .next (s.raise .bridgeRange) := by
  simp only [exec, execBind, withLine_line, if_neg (Nat.not_lt.2 hb)]

theorem exec_bind_absentSlot (hb : b < s.cfg.nbridge) (hslot : s.cfg.nslot ≤ slot) :
    exec (.bind L.val b slot) s = .next (s.raise .slotRange) := by
  simp only [exec, execBind, withLine_line, if_pos hb, if_neg (Nat.not_lt.2 hslot)]

theorem exec_bind_bound (hb : b < s.cfg.nbridge) (hslot : slot < s.cfg.nslot) (hbound : s.bind[L] ≠ none) :
    exec (.bind L.val b slot) s = .next (s.raise .doubleBind) := by
  obtain ⟨old, hold⟩ := Option.ne_none_iff_exists'.1 hbound
  simp only [exec, execBind, withLine_line, if_pos hb, if_pos hslot, hold]

theorem exec_bind_unbound (hb : b < s.cfg.nbridge) (hslot : slot < s.cfg.nslot) (hunbound : s.bind[L] = none) :
    exec (.bind L.val b slot) s = .next (s.answered (s.setBind L (some ⟨b, slot⟩)) .bind .unit) := by
  simp only [exec, execBind, withLine_line, if_pos hb, if_pos hslot, hunbound,
    State.complete_eq_answered (s.setBind_self L (some ⟨b, slot⟩))]

end

/-! ### STARTUP, an outcome at a time -/

section
variable (s : State) (L : Line)

/-- The owner that R156 states is the one STARTUP chooses. -/
theorem ownerChoice_eq {g : Cfg} {o : CpuId} (h : cfgPin g L = some o ∨ (cfgPin g L = none ∧ o = 0)) :
    ownerChoice g L = o := by
  rcases h with hpin | ⟨hpin, rfl⟩ <;> simp only [ownerChoice, hpin] <;> rfl

theorem exec_startup_active_answered (ho : s.owner[L] ≠ none) :
    exec (.startup L.val) s = .next (s.answered (s.emit (.violation L)) .startup (.startup .busy)) := by
  obtain ⟨c, hc⟩ := Option.ne_none_iff_exists'.1 ho
  rw [exec_startup_active s L hc, State.complete_eq_answered (s.emit_self _)]

theorem exec_startup_idle_answered (ho : s.owner[L] = none) :
    exec (.startup L.val) s = .next (s.answered (s.startLine L) .startup (.startup .ok)) := by
  rw [exec_startup_idle s L ho, State.complete_eq_answered (s.startLine_self L)]

theorem State.startLine_eq_update :
    s.startLine L = { s with
      owner := s.owner.set L (some (ownerChoice s.cfg L))
      status := (s.ackLine L).status
      mask := s.mask.set (ownerChoice s.cfg L) (s.mask[ownerChoice s.cfg L] ||| bit L.val)
      bridges := (s.startLine L).bridges
      bq := (s.startLine L).bq } := by
  apply State.ext <;> simp

end

/-! ### The claims -/

/-- Settles O6: each check of BIND that fails decides the fault, and the line's entry of the binding table
decides between a double bind and a first one. -/
theorem bindRecordsAFirstBinding : Obligations.BindRecordsAFirstBinding := by
  unfold Obligations.BindRecordsAFirstBinding
  refine fun s l b slot => ⟨fun _ _ _ => encode_bind l b slot, fun hl => next_withLine_of_le s hl _, ?_⟩
  rintro L rfl
  exact ⟨exec_bind_absentBridge s, exec_bind_absentSlot s,
    fun hb hslot => ⟨exec_bind_bound s hb hslot, exec_bind_unbound s hb hslot⟩⟩

/-- Settles O7: the recorded owner decides whether STARTUP is refused, and the binding whether it posts and
flushes. -/
theorem startupMakesALineActive : Obligations.StartupMakesALineActive := by
  unfold Obligations.StartupMakesALineActive
  refine fun s l => ⟨fun _ => encode_startup l, fun hl => next_withLine_of_le s hl _, ?_⟩
  rintro L o rfl hchoice
  obtain rfl := ownerChoice_eq L hchoice
  refine ⟨exec_startup_active_answered s L, fun hidle => ⟨(s.ackLine L).status, _, (s.startLine L).bridges,
    (s.startLine L).bq, ?_, s.ackLine_bit L, getLsbD_setLine _ L, s.startLine_unbound, fun b hb => ?_⟩⟩
  · rw [← s.startLine_eq_update L, exec_startup_idle_answered s L hidle]
  · exact (s.startLine_bound hb).symm

end Sys2Proof.Machine
end

/-! The fields that a dispatcher step and the second phase of a send leave, one lemma a field. -/
section
namespace Sys2Proof.Machine

section
variable (s : State)

@[simp] theorem State.dispatchStep_fault : s.dispatchStep.fault = s.fault := (dispatch_frame s).1

@[simp] theorem State.dispatchStep_prog : s.dispatchStep.prog = s.prog := (dispatch_frame s).2.1

@[simp] theorem State.dispatchStep_send : s.dispatchStep.send = s.send := (dispatch_frame s).2.2.1

@[simp] theorem State.dispatchStep_cfg : s.dispatchStep.cfg = s.cfg := (dispatch_frame s).2.2.2.1

@[simp] theorem State.dispatchStep_bind : s.dispatchStep.bind = s.bind := by
  obtain ⟨-, -, -, -, -, hbind, -⟩ := dispatch_frame s
  exact hbind

@[simp] theorem State.dispatchStep_owner : s.dispatchStep.owner = s.owner := by
  obtain ⟨-, -, -, -, -, -, howner, -⟩ := dispatch_frame s
  exact howner

@[simp] theorem State.dispatchStep_cause : s.dispatchStep.cause = s.cause := by
  obtain ⟨-, -, -, -, -, -, -, hcause, -⟩ := dispatch_frame s
  exact hcause

@[simp] theorem State.dispatchStep_sched : s.dispatchStep.sched = s.sched := by
  obtain ⟨-, -, -, -, -, -, -, -, -, -, hsched⟩ := dispatch_frame s
  exact hsched

variable (target : CpuId)

@[simp] theorem State.assertIpi_cfg : (s.assertIpi target).cfg = s.cfg := rfl
@[simp] theorem State.assertIpi_cause : (s.assertIpi target).cause = s.cause := rfl
@[simp] theorem State.assertIpi_owner : (s.assertIpi target).owner = s.owner := rfl
@[simp] theorem State.assertIpi_bind : (s.assertIpi target).bind = s.bind := rfl
@[simp] theorem State.assertIpi_mbox : (s.assertIpi target).mbox = s.mbox := rfl
@[simp] theorem State.assertIpi_disp : (s.assertIpi target).disp = s.disp := rfl
@[simp] theorem State.assertIpi_send : (s.assertIpi target).send = s.send.set s.self .idle := rfl
@[simp] theorem State.assertIpi_fault : (s.assertIpi target).fault = s.fault := rfl
@[simp] theorem State.assertIpi_prog : (s.assertIpi target).prog = s.prog := rfl
@[simp] theorem State.assertIpi_hist :
    (s.assertIpi target).hist = s.hist ++ [.resp s.self .ipiSend .unit] := rfl
@[simp] theorem State.assertIpi_index :
    (s.assertIpi target).index = s.index.set s.self (s.index[s.self] + 1) := rfl

end

end Sys2Proof.Machine
end

/-! The dispatch front-end (43_dispatch.md R170-R179, R186): the band an entry takes, and the steps of the dispatcher up to a line's flow. -/
section
namespace Sys2Proof.Machine

/-! ### The band of an entry -/

/-- The band an entry selects has the highest priority of those raised (R171). -/
theorem bandOf_priority_le {s : State} {k : CpuId} {x : Draw} {b b' : Band}
    (hband : bandOf (sum5 s k x) = some b) (hraised : BandRaised s k x b') : b.priority ≤ b'.priority := by
  rw [bandRaised_iff] at hraised
  unfold bandOf at hband
  cases b'
  all_goals
    simp only [Band.priority, Nat.reduceSub] at hraised
    simp only [hraised, if_true] at hband
    repeat' split at hband
    all_goals cases hband; decide

theorem Band.priority_injective : ∀ b b' : Band, b.priority = b'.priority → b = b' := by
  intro b b' h
  cases b <;> cases b' <;> cases h <;> rfl

theorem bandOf_eq_some {s : State} {k : CpuId} {x : Draw} {b : Band} (hraised : BandRaised s k x b)
    (hhighest : ∀ b', BandRaised s k x b' → b.priority ≤ b'.priority) : bandOf (sum5 s k x) = some b := by
  obtain ⟨b', hb'⟩ := bandOf_of_raised hraised
  have heq := Nat.le_antisymm (bandOf_priority_le hb' hraised) (hhighest b' (bandOf_raised hb'))
  rw [hb', Band.priority_injective b' b heq]

theorem bandOf_eq_none {s : State} {k : CpuId} {x : Draw} (h : ∀ b, ¬ BandRaised s k x b) :
    bandOf (sum5 s k x) = none :=
  Option.eq_none_iff_forall_ne_some.2 fun b hb => h b (bandOf_raised hb)

/-! ### IRQ_ENTRY, an outcome at a time -/

section
variable (s : State)

theorem exec_irqEntry_nested (hbusy : s.disp[s.self] ≠ .idle) :
    exec .irqEntry s = .next (s.raise .nestedEntry) := by
  simp only [exec, execIrqEntry, if_neg hbusy]

theorem exec_irqEntry_enters {b : Band} (hidle : s.disp[s.self] = .idle)
    (hband : bandOf (sum5 s s.self s.draw) = some b) :
    exec .irqEntry s
      = .next (((s.emit (.entry s.self b)).setDisp s.self (.band b)).setEntryListed s.self s.listed) := by
  simp only [exec, execIrqEntry, if_pos hidle, hband]

theorem exec_irqEntry_spurious (hidle : s.disp[s.self] = .idle)
    (hband : bandOf (sum5 s s.self s.draw) = none) :
    exec .irqEntry s = .next ((s.emit (.spurious s.self)).endEntry s.listed) := by
  simp only [exec, execIrqEntry, if_pos hidle, hband]

/-- The end of an entry as an update of the fields it changes (R231). -/
theorem State.endEntry_eq_update (listed : Bool) :
    s.endEntry listed = { s with
      disp := s.disp.set s.self .idle
      hist := s.hist ++ [.resp s.self .irqEntry .unit]
      index := if listed then s.index.set s.self (s.index[s.self] + 1) else s.index } := by
  cases listed <;> rfl

end

/-- Settles O13: the dispatcher and the selected band decide between a fault, a band and a spurious entry;
the band selected is the raised one of highest priority. -/
theorem entryTakesTheHighestBand : Obligations.EntryTakesTheHighestBand := by
  unfold Obligations.EntryTakesTheHighestBand
  refine fun s => ⟨rfl, exec_irqEntry_nested s, fun hidle => ⟨fun b hraised hhighest => ?_, fun hnone => ?_⟩⟩
  · exact exec_irqEntry_enters s hidle (bandOf_eq_some hraised hhighest)
  · rw [exec_irqEntry_spurious s hidle (bandOf_eq_none hnone), State.endEntry_eq_update]
    simp [State.emit]

/-! ### The steps before a line's flow -/

section
variable {s : State} {c : CpuId} {x : Draw} {rest : List Scheduled}

/-- The register a generic band reads first (R177). -/
theorem step_of_genericBand (hcpu : s.CpuTakes c x rest)
    (hd : s.disp[c] = .band .genHi ∨ s.disp[c] = .band .genLo) :
    step s = .next (dispSnapFirst (s.issued c x true rest)) := by
  rcases hd with hd | hd <;> rw [step_of_busy hcpu (by simp [hd])] <;>
    simp only [State.dispatchStep, State.issued_disp, State.issued_self, hd]

/-- The second step of a generic band (R178). -/
theorem step_of_genHalf {first : SnapFirst} {v : Word} (hcpu : s.CpuTakes c x rest)
    (hd : s.disp[c] = .genHalf first v) :
    step s = .next (dispSnapSecond first v (s.issued c x true rest)) := by
  rw [step_of_busy hcpu (by simp [hd])]
  simp only [State.dispatchStep, State.issued_disp, State.issued_self, hd]

/-- The step of a scan (R179). -/
theorem step_of_scan {rem : Word} (hcpu : s.CpuTakes c x rest) (hd : s.disp[c] = .scan rem) :
    step s = .next (dispScan rem (s.issued c x true rest)) := by
  rw [step_of_busy hcpu (by simp [hd])]
  simp only [State.dispatchStep, State.issued_disp, State.issued_self, hd]

/-- A scan with no line left ends its entry. -/
theorem step_of_scan_zero (hcpu : s.CpuTakes c x rest) (hd : s.disp[c] = .scan 0) :
    step s = .next (State.entryEnded c (s.issued c x true rest)) := by
  rw [step_of_scan hcpu hd, dispScan, (msb_eq_none 0).2 rfl, finish_eq, State.issued_self]

/-- A scan dispatches the highest line left. -/
theorem step_of_scan_msb {rem : Word} {l : Line} (hcpu : s.CpuTakes c x rest) (hd : s.disp[c] = .scan rem)
    (hl : msb rem = some l) :
    step s = .next (((s.issued c x true rest).emit (.dispatch c l)).setDisp c
      (.flow (rem &&& ~~~(bit l.val)) l .pre)) := by
  rw [step_of_scan hcpu hd, dispScan, hl, State.issued_self]

/-- The snapshot is determined by its bits (R178). -/
theorem snapshot_eq {first : SnapFirst} {v snap : Word}
    (h : ∀ i : Line, snap.getLsbD i.val = (v.getLsbD i.val && s.cfg.managedMask.getLsbD i.val
      && (if first = .status then s.mask[s.self].getLsbD i.val else s.status.getLsbD i.val))) :
    snapshot first v s = snap := by
  refine word_ext fun i => ?_
  rw [h i]
  cases first
  · simp only [snapshot, BitVec.getLsbD_and, if_true]
  · simp only [snapshot, BitVec.getLsbD_and, reduceCtorEq, if_false]
    rw [Bool.and_comm, Bool.and_comm (s.status.getLsbD _), Bool.and_assoc]

end

/-- Settles O14: the band decides the step, which ends the entry after its one event. -/
theorem counterBandsDispatchAFixedIrq : Obligations.CounterBandsDispatchAFixedIrq := by
  unfold Obligations.CounterBandsDispatchAFixedIrq
  refine fun s c x rest hcpu => ⟨fun hd => ?_, fun hd => ?_⟩ <;> rw [step_of_busy hcpu (by simp [hd])]
  · simp only [State.dispatchStep, State.issued_disp, State.issued_self, hd, dispCpucnt, finish_eq]
    rfl
  · simp only [State.dispatchStep, State.issued_disp, State.issued_self, hd, dispHcnt, finish_eq]
    rfl

/-- Settles O15: E1 keeps the two registers in `DISP`; E2 writes ERR_MASK to `CLEAR` and reports the set bits
of the value read under ERR_MASK, whose bits are 51 to 63. -/
theorem errorBandReportsAndAcknowledges : Obligations.ErrorBandReportsAndAcknowledges := by
  unfold Obligations.ErrorBandReportsAndAcknowledges
  refine fun s c x rest hcpu => ⟨fun hd => ?_, fun sv cv hd =>
    ⟨s.status &&& ~~~errMask, bitsDesc (sv &&& errMask), ?_, fun i => ?_, fun i => ?_, bitsDesc_descends _⟩⟩
  · rw [step_of_busy hcpu (by simp [hd])]
    simp only [State.dispatchStep, State.issued_disp, State.issued_self, hd]
    rfl
  · rw [step_of_busy hcpu (by simp [hd])]
    simp only [State.dispatchStep, State.issued_disp, State.issued_self, hd, dispErrAck, finish_eq]
    rfl
  · rw [getLsbD_andNot, errMask_bit, ← decide_not, decide_eq_decide.2 Nat.not_le]
  · simp only [mem_bitsDesc, BitVec.getLsbD_and, errMask_bit, Bool.and_eq_true, decide_eq_true_eq, and_comm]

/-- Settles O16: the draw decides the first read; the second makes the snapshot, which decides between a scan
and the end of the entry. -/
theorem genericBandTakesOneSnapshot : Obligations.GenericBandTakesOneSnapshot := by
  unfold Obligations.GenericBandTakesOneSnapshot
  refine fun s c x rest hcpu => ⟨fun hd => ⟨fun hfirst => ?_, fun hfirst => ?_⟩, fun first v snap hd hbits => ?_⟩
  · rw [step_of_genericBand hcpu hd]
    simp only [dispSnapFirst, State.issued_draw, hfirst]
    rfl
  · rw [step_of_genericBand hcpu hd]
    simp only [dispSnapFirst, State.issued_draw, hfirst]
    rfl
  · have hsnap : snapshot first v (s.issued c x true rest) = snap := snapshot_eq hbits
    rw [step_of_genHalf hcpu hd, dispSnapSecond, hsnap]
    refine ⟨fun hzero => ?_, fun hne => ?_⟩
    · rw [if_pos hzero, finish_eq]
      rfl
    · rw [if_neg hne]
      rfl

/-- Settles O17: the highest line left is what `msb` finds, and with none left it finds nothing. -/
theorem scanDispatchesTheHighestLine : Obligations.ScanDispatchesTheHighestLine := by
  unfold Obligations.ScanDispatchesTheHighestLine
  refine fun s c x rest rem hcpu hd => ⟨?_, fun L hset habove =>
    ⟨rem &&& ~~~(bit L.val), getLsbD_clearLine rem L, step_of_scan_msb hcpu hd (msb_of_top hset habove)⟩⟩
  rintro rfl
  exact step_of_scan_zero hcpu hd

/-- Settles O19: a busy CPU takes a dispatcher step, which leaves `FAULT`, the programs and the sends, and
moves a program index only where the entry ends. -/
theorem interruptContextComesFirst : Obligations.InterruptContextComesFirst := by
  unfold Obligations.InterruptContextComesFirst
  intro s c x rest hcpu hbusy
  exact ⟨_, step_of_busy hcpu hbusy, by simpa using hcpu.takes.unfaulted, by simp, by simp,
    dispatch_index (s.issued c x true rest)⟩

/-! ### What raises NESTED_ENTRY -/

/-- A command that leaves NESTED_ENTRY in an unfaulted state is an entry during an entry (R170). -/
theorem ExecOf.fault_ne_nestedEntry {s t : State} {i : Instr} (h : ExecOf s i t) (hf : s.fault = none)
    (hidle : s.disp[s.self] = .idle) : t.fault ≠ some .nestedEntry := by
  cases h with
  | raised _ code _ _ _ hnested _ =>
    intro hcode
    have hcode : code = .nestedEntry := by simpa [hf] using hcode
    exact (hnested hcode).2 hidle
  | _ => simp [hf]

/-- Settles O20: an agent runs commands and entries only where the dispatcher is Idle, and no other step of an
agent raises NESTED_ENTRY. -/
theorem agentsNeverNestEntries : Obligations.AgentsNeverNestEntries := by
  unfold Obligations.AgentsNeverNestEntries
  intro s t hagent hstep
  obtain ⟨-, hf, hcases⟩ := step_cases hstep
  cases hcases
  case deliver c x _ hn _ => exact absurd hn (hagent c x)
  case command hd _ _ _ he => exact he.fault_ne_nestedEntry (by simpa using hf) (by simpa using hd)
  case entry hd he => exact he.fault_ne_nestedEntry (by simpa using hf) (by simpa using hd)
  case decodeFault hcode => rcases hcode with rfl | rfl <;> simp [hf]
  case access ha => cases ha <;> simp [hf]
  all_goals simp [hf]

/-! ### The step of a command or an entry -/

/-- The step of an entry between two commands (R186). -/
theorem step_of_entry {s : State} {c : CpuId} {x : Draw} {rest : List Scheduled}
    (htakes : s.Takes (.entry c x) rest) (hc : c.val < s.cfg.ncpu) :
    step s = if s.disp[c] = .idle then exec .irqEntry (s.issued c x false rest)
      else .next { s with sched := rest } := by
  rw [step_of_takes htakes]
  simp only [choiceStep, State.cpuExists, hc, decide_true, if_true, entryStep]
  rfl

/-- The step of an entry that a harness delivers. -/
theorem step_of_deliver {s : State} {c : CpuId} {x : Draw} {rest : List Scheduled}
    (hcfg : cfgWellFormed s.cfg = true) (hf : s.fault = none) (hsched : s.sched = .deliver c x :: rest)
    (hc : c.val < s.cfg.ncpu) : step s = exec .irqEntry (s.issued c x false rest) := by
  have hpresent : { s with sched := rest }.cpuExists c = true := decide_eq_true hc
  have hstep : step s = scheduledStep s.nextScheduled s.popScheduled := by simp only [step, if_pos hcfg, hf]
  rw [hstep, State.nextScheduled, State.popScheduled, hsched]
  exact if_pos hpresent

/-- Settles O43: the item fetched is decoded and run, an entry between commands looks at the dispatcher, and
one that is delivered does not. -/
theorem stepRunsTheDecodedCommand : Obligations.StepRunsTheDecodedCommand := by
  unfold Obligations.StepRunsTheDecodedCommand
  refine ⟨fun s c x rest w d hfetch => ⟨fun i hi => ?_, fun code hcode => ?_⟩,
    fun s c x rest htakes hc => ⟨fun hidle => ?_, fun hbusy => ?_⟩,
    fun s c x rest hcfg hf hsched hc => step_of_deliver hcfg hf hsched hc⟩
  · simp only [step_of_fetches hfetch, runItem, hi]
  · simp only [step_of_fetches hfetch, runItem, hcode]
  · rw [step_of_entry htakes hc, if_pos hidle]
  · rw [step_of_entry htakes hc, if_neg hbusy]

end Sys2Proof.Machine
end

/-! The IPI mailboxes (44_ipi.md R201-R205). A mailbox word changes only where a send ORs into it and where its own CPU drains it. -/
section
namespace Sys2Proof.Machine

/-- IPI_RECEIVE as an update of the fields it changes, with the handlers of a configuration whose two
recognised bits differ (R204, R205). -/
theorem State.receive_eq_update {s : State} (hbits : s.cfg.callBit ≠ reschedBit) :
    s.receive = { s with
      mbox := s.mbox.set s.self 0
      status := s.receive.status
      hist := s.hist
        ++ (if s.mbox[s.self].getLsbD 0 then [.ipiAction s.self .resched] else [])
        ++ (if s.mbox[s.self].getLsbD s.cfg.callBit.val then [.ipiAction s.self .call] else []) } := by
  have hhist : s.receive.hist = s.hist
      ++ (if s.mbox[s.self].getLsbD 0 then [.ipiAction s.self .resched] else [])
      ++ (if s.mbox[s.self].getLsbD s.cfg.callBit.val then [.ipiAction s.self .call] else []) := by
    rw [State.receive_hist, actionsOf_eq s.cfg s.mbox[s.self] hbits, List.map_append, ← List.append_assoc,
      apply_ite (List.map _), apply_ite (List.map _)]
    rfl
  rw [← hhist]
  rfl

/-- Settles O22: the second phase is the assertion, the end of the send and the completion. -/
theorem ipiSendAssertsTheTargetLine : Obligations.IpiSendAssertsTheTargetLine := by
  unfold Obligations.IpiSendAssertsTheTargetLine
  refine fun s c t x rest hcpu hidle hsend =>
    ⟨s.status ||| bit (cfgIpiLine s.cfg t).val, ?_, getLsbD_setLine s.status _⟩
  rw [step_of_asserting hcpu hidle hsend, State.assertIpi,
    State.complete_eq_answered (s := s.issued c x true rest) (by simp)]
  rfl

/-- Settles O23: the command completes with the effect of a receive and the mailbox word it read. -/
theorem ipiReceiveDrainsTheMailbox : Obligations.IpiReceiveDrainsTheMailbox := by
  unfold Obligations.IpiReceiveDrainsTheMailbox
  refine ⟨rfl, fun s hbits => ⟨s.receive.status, ?_, fun i => ?_⟩⟩
  · rw [← State.receive_eq_update hbits, exec_ipiReceive_answered]
  · rw [State.receive_status, getLsbD_clearLine]

/-- A send to a CPU that exists ORs its actions into the mailbox and leaves the configuration. -/
theorem exec_ipiSend_mbox {s : State} {c : CpuId} (hc : c.val < s.cfg.ncpu) (d : Word) :
    ∃ t, exec (.ipiSend c d) s = .next t ∧ t.cfg = s.cfg ∧ t.mbox[c] = s.mbox[c] ||| d :=
  ⟨_, (exec_ipiSend s c d).trans (congrArg _ (withCpu_of_lt hc _)), rfl, by simp⟩

/-- Settles O24: each send ORs into the mailbox, and the receive responds what it holds. -/
theorem sendsCoalesceInTheMailbox : Obligations.SendsCoalesceInTheMailbox := by
  unfold Obligations.SendsCoalesceInTheMailbox
  intro s c c1 c2 a1 a2 hc hempty
  obtain ⟨t1, hsend1, hcfg1, hmbox1⟩ := exec_ipiSend_mbox (s := { s with self := c1 }) hc a1
  obtain ⟨t2, hsend2, -, hmbox2⟩ := exec_ipiSend_mbox (s := { t1 with self := c2 }) (hcfg1 ▸ hc) a2
  have hunion : t2.mbox[c] = a1 ||| a2 := calc
    t2.mbox[c] = t1.mbox[c] ||| a2 := hmbox2
    _ = s.mbox[c] ||| a1 ||| a2 := by rw [hmbox1]
    _ = a1 ||| a2 := by rw [hempty]; simp
  refine ⟨t1, t2, _, hsend1, hsend2, exec_ipiReceive_answered _, by simp [State.answered],
    { t2 with self := c }.receive.hist, ?_⟩
  rw [← hunion]
  rfl

/-! ### No step loses an action -/

/-- From `s` to `t`, the mailbox of CPU `c` keeps its action bits, or is zeroed with its actions emitted
(R203). -/
def MailboxKept (c : CpuId) (s t : State) : Prop :=
  (∀ k : Line, s.mbox[c].getLsbD k.val = true → t.mbox[c].getLsbD k.val = true)
  ∨ (t.mbox[c] = 0 ∧ ∃ tail, t.hist = s.hist ++ (actionsOf s.cfg s.mbox[c]).map (Event.ipiAction c) ++ tail)

theorem MailboxKept.of_eq {c : CpuId} {s t : State} (h : t.mbox = s.mbox) : MailboxKept c s t :=
  .inl fun k hk => by rwa [h]

/-- A command leaves the mailboxes, posts to one, or drains its CPU's own. -/
theorem ExecOf.mailboxKept {s t : State} {i : Instr} (c : CpuId) (h : ExecOf s i t) : MailboxKept c s t := by
  cases h with
  | ipiSend target d _ =>
    left
    intro k hk
    by_cases hc : target = c
    · subst hc
      simp_all
    · simp_all
  | ipiReceive =>
    by_cases hc : s.self = c
    · subst hc
      exact .inr ⟨by simp, [.resp s.self .ipiReceive (.word s.mbox[s.self])], by simp⟩
    · exact .inl fun k hk => by simpa [hc] using hk
  | _ => exact .of_eq (by simp)

/-- Settles O25: a command posts or drains, a dispatcher step leaves or drains, and no other step reaches a
mailbox. -/
theorem noMailboxActionIsLost : Obligations.NoMailboxActionIsLost := by
  unfold Obligations.NoMailboxActionIsLost
  intro s t c hstep
  have hkept : MailboxKept c s.popScheduled t := by
    cases (step_cases hstep).2.2
    case command he | entry he | deliver he => exact he.mailboxKept c
    case dispatch d x _ _ _ =>
      rcases dispatch_mbox (s.popScheduled.begin d x true) c with hsame | ⟨-, hzero, hhist⟩
      · exact .inl fun k hk => by rwa [hsame]
      · exact .inr ⟨hzero, [], by simpa using hhist⟩
    case access ha => exact .of_eq (by cases ha <;> simp)
    all_goals exact .of_eq (by simp)
  simpa [MailboxKept] using hkept

end Sys2Proof.Machine
end

/-! The bridge agent and the device agent (20_memory.md R66, R67; 60_exceptions.md R226). -/
section
namespace Sys2Proof.Machine

/-! ### One posted write -/

section
variable (old : Bridge) (slot : Line) (w : BridgeWrite)

theorem Bridge.perform_en_bit (i : Line) :
    (old.perform slot.val w).en.getLsbD i.val
      = if w = .enSet then old.en.getLsbD i.val || decide (i.val = slot.val)
        else if w = .enClear then old.en.getLsbD i.val && decide (i.val ≠ slot.val)
        else old.en.getLsbD i.val := by
  cases w with
  | enSet | enClear | modeSet | route => simp [Bridge.perform]

theorem Bridge.perform_mode_bit (i : Line) :
    (old.perform slot.val w).mode.getLsbD i.val
      = if w = .modeSet then old.mode.getLsbD i.val || decide (i.val = slot.val)
        else old.mode.getLsbD i.val := by
  cases w <;> simp [Bridge.perform]

end

theorem Bridge.perform_route_of_route (old : Bridge) (slot : Nat) (r : RouteValue) :
    (old.perform slot (.route r)).route = old.route.set slot r := rfl

theorem Bridge.perform_route_of_ne {old : Bridge} {slot : Nat} {w : BridgeWrite} (h : ∀ r, w ≠ .route r) :
    (old.perform slot w).route = old.route := by
  cases w with
  | route r => exact absurd rfl (h r)
  | enSet | enClear | modeSet => rfl

/-- A write on a bridge that exists. -/
theorem performPosted_of_getElem? {bs : List Bridge} {p : Posted} {old : Bridge} (h : bs[p.bridge]? = some old) :
    performPosted bs p = bs.set p.bridge (old.perform p.slot p.write) := by
  simp only [performPosted, h]

/-! ### The step of the bridge agent -/

theorem step_of_bridge {s : State} {rest : List Scheduled} (h : s.Takes .bridge rest) :
    step s = .next { s with sched := rest }.bridgeStep :=
  step_of_takes h

/-- The step of the bridge agent with a write posted. -/
theorem step_of_bridge_cons {s : State} {rest : List Scheduled} {p : Posted} {q : List Posted}
    (h : s.Takes .bridge rest) (hbq : s.bq = p :: q) :
    step s = .next { s with sched := rest, bridges := performPosted s.bridges p, bq := q } := by
  simp only [step_of_bridge h, State.bridgeStep, hbq]

/-- Settles O26: the oldest write replaces one bridge of the list, in which `perform` writes one slot. -/
theorem bridgeAgentPerformsTheOldestWrite : Obligations.BridgeAgentPerformsTheOldestWrite := by
  unfold Obligations.BridgeAgentPerformsTheOldestWrite
  refine fun s rest htakes => ⟨fun hbq => ?_, fun p q old hbq hold hslot => ?_⟩
  · rw [step_of_bridge htakes, State.bridgeStep, hbq]
  · obtain ⟨hlt, -⟩ := List.getElem?_eq_some_iff.1 hold
    refine ⟨s.bridges.set p.bridge (old.perform p.slot p.write), old.perform p.slot p.write, ?_,
      List.length_set, fun b hb => List.getElem?_set_ne hb.symm, List.getElem?_set_self hlt,
      old.perform_en_bit ⟨p.slot, hslot⟩ p.write, old.perform_mode_bit ⟨p.slot, hslot⟩ p.write,
      fun r hr => ?_, Bridge.perform_route_of_ne⟩
    · rw [step_of_bridge_cons htakes hbq, performPosted_of_getElem? hold]
    · rw [hr, Bridge.perform_route_of_route]

/-- A run of as many bridge agent steps as writes are posted flushes them (R67). -/
theorem run_bridge_eq_flush {s : State} {q : List Posted} {rest : List Scheduled}
    (hcfg : cfgWellFormed s.cfg = true) (hfault : s.fault = none) (hbq : s.bq = q)
    (hsched : s.sched = List.replicate q.length (.agent .bridge) ++ rest) :
    Host.Core.run Sys2Proof.core q.length s = .next { s.flush with sched := rest } := by
  induction q generalizing s with
  | nil =>
    have hflush : s = { s.flush with sched := rest } := by
      apply State.ext <;> simp [hbq, hsched]
    rw [← hflush]
    rfl
  | cons p q ih =>
    have htakes : s.Takes .bridge (List.replicate q.length (.agent .bridge) ++ rest) := ⟨hcfg, hfault, hsched⟩
    refine (run_of_step (step_of_bridge_cons htakes hbq)).trans ?_
    rw [State.flush, hbq]
    exact ih (s := { s with sched := _, bridges := performPosted s.bridges p, bq := q }) hcfg hfault rfl rfl

/-- Settles O27: by induction on the posted writes, of which each step performs the oldest. -/
theorem flushEqualsTheBridgeAgentsSteps : Obligations.FlushEqualsTheBridgeAgentsSteps := by
  unfold Obligations.FlushEqualsTheBridgeAgentsSteps
  exact fun s rest hcfg hfault hsched => run_bridge_eq_flush hcfg hfault rfl hsched

/-! ### The steps of the device agent -/

theorem step_of_devAssert {s : State} {rest : List Scheduled} {l : Line} (h : s.Takes (.devAssert l) rest) :
    step s = .next ({ s with sched := rest }.devAssert l) :=
  step_of_takes h

/-- Settles O28: SOURCE_LINES decides whether an assertion sets its line's bit; a cause is ORed in. -/
theorem deviceAgentAssertsAndRecords : Obligations.DeviceAgentAssertsAndRecords := by
  unfold Obligations.DeviceAgentAssertsAndRecords
  refine fun s rest =>
    ⟨fun l htakes => ⟨fun hsource => ⟨s.status ||| bit l.val, ?_, getLsbD_setLine s.status l⟩, fun hother => ?_⟩,
      fun v htakes => ⟨s.cause ||| v, step_of_takes htakes, fun i => BitVec.getLsbD_or⟩⟩
  · rw [step_of_devAssert htakes, State.devAssert, cfgIsSource, if_pos hsource]
    rfl
  · rw [step_of_devAssert htakes, State.devAssert, cfgIsSource, if_neg (by rw [hother]; exact Bool.false_ne_true)]

end Sys2Proof.Machine
end

/-! Address-level accesses (20_memory.md R62-R64). The register that an address names decides whether an access is admitted, and what it reads or writes. -/
section
namespace Sys2Proof.Machine

section
variable {s : State} {c : CpuId} {x : Draw} {rest : List Scheduled} {addr width : Nat} {v : Word}

/-- A CPU whose next item is an access performs it. -/
theorem step_of_access {a : Access} (hfetch : s.Fetches c x rest (.access a)) :
    step s = .next ((s.issued c x true rest).access a) := by
  rw [step_of_fetches hfetch, runItem]

theorem State.access_read_of_reg {r : HeartReg} (hreg : regAt s.cfg addr width = some r)
    (hread : s.regRead r = some v) : s.access (.read addr width) = (s.setReadData s.self v).advance := by
  simp only [State.access, hreg, Option.bind_some, hread]

theorem State.access_read_faults (h : ∀ r, regAt s.cfg addr width = some r → s.regRead r = none) :
    s.access (.read addr width) = s.raise .mmioAccess := by
  simp only [State.access, Option.bind_eq_none_iff.2 h]

theorem State.access_write_of_reg {r : HeartReg} {t : State} (hreg : regAt s.cfg addr width = some r)
    (hwrite : s.regWrite r v = some t) : s.access (.write addr width v) = t.advance := by
  simp only [State.access, hreg, Option.bind_some, hwrite]

theorem State.access_write_faults (h : ∀ r, regAt s.cfg addr width = some r → s.regWrite r v = none) :
    s.access (.write addr width v) = s.raise .mmioAccess := by
  simp only [State.access, Option.bind_eq_none_iff.2 h]

end

/-- Settles O29: the readable registers are the status, a mask and the cause register, each at its address;
any other address names none, or one of the two that no read admits. -/
theorem addressLevelReads : Obligations.AddressLevelReads := by
  unfold Obligations.AddressLevelReads
  intro s c x rest addr width hfetch hdistinct
  rw [step_of_access hfetch]
  refine ⟨fun hbad => ?_, ?_⟩
  · rw [State.access_read_faults fun r hr => by simp [regAt_bad hbad] at hr]
  rintro rfl haligned
  have hspec : ∀ r, regAt (s.issued c x true rest).cfg addr 8 = some r ↔ _ :=
    regAt_spec s.cfg hdistinct haligned
  refine ⟨fun v hv => ?_, fun hstatus hcause hmask => ?_⟩
  · have hread : ∃ r, regAt (s.issued c x true rest).cfg addr 8 = some r
        ∧ (s.issued c x true rest).regRead r = some v := by
      rcases hv with ⟨haddr, rfl⟩ | ⟨haddr, rfl⟩ | ⟨k, hk, haddr, hbase, rfl⟩
      · exact ⟨.status, (hspec _).2 (.inl ⟨haddr, rfl⟩), rfl⟩
      · exact ⟨.cause, (hspec _).2 (.inr (.inr (.inr (.inr ⟨haddr, rfl⟩)))), rfl⟩
      · exact ⟨.mask k, (hspec _).2 (.inr (.inr (.inr (.inl ⟨k, hk, haddr, hbase, rfl⟩)))), rfl⟩
    obtain ⟨r, hreg, hread⟩ := hread
    rw [State.access_read_of_reg hreg hread]
    rfl
  · rw [State.access_read_faults fun r hr => ?_]
    rcases (hspec r).1 hr with ⟨haddr, -⟩ | ⟨-, rfl⟩ | ⟨-, rfl⟩ | ⟨k, hk, haddr, hbase, -⟩ | ⟨haddr, -⟩
    · exact absurd haddr hstatus
    · rfl
    · rfl
    · exact absurd haddr (hmask k hk hbase)
    · exact absurd haddr hcause

/-- Settles O30: the writable registers are SET, CLEAR and a mask register, each at its address, and the
command of each makes the same change; any other address names none, or one of the two that no write admits. -/
theorem addressLevelWrites : Obligations.AddressLevelWrites := by
  unfold Obligations.AddressLevelWrites
  intro s c x rest addr width v hfetch hdistinct
  rw [step_of_access hfetch]
  refine ⟨fun hbad => ?_, ?_⟩
  · rw [State.access_write_faults fun r hr => by simp [regAt_bad hbad] at hr]
  rintro rfl haligned
  have hspec : ∀ r, regAt (s.issued c x true rest).cfg addr 8 = some r ↔ _ :=
    regAt_spec s.cfg hdistinct haligned
  refine ⟨fun i hi => ?_, fun hset hclear hmask => ?_⟩
  · rcases hi with ⟨haddr, rfl⟩ | ⟨haddr, rfl⟩ | ⟨k, hk, haddr, hbase, rfl⟩
    · refine ⟨_, exec_wrSet _ v, ?_⟩
      rw [State.access_write_of_reg ((hspec .set).2 (.inr (.inl ⟨haddr, rfl⟩))) rfl]
      rfl
    · refine ⟨_, exec_wrClear _ v, ?_⟩
      rw [State.access_write_of_reg ((hspec .clear).2 (.inr (.inr (.inl ⟨haddr, rfl⟩)))) rfl]
      rfl
    · refine ⟨_, (exec_wrMask _ k v).trans (congrArg _ (withCpu_of_lt (s := s.issued c x true rest) hk _)), ?_⟩
      rw [State.access_write_of_reg
        ((hspec (.mask k)).2 (.inr (.inr (.inr (.inl ⟨k, hk, haddr, hbase, rfl⟩))))) rfl]
      rfl
  · rw [State.access_write_faults fun r hr => ?_]
    rcases (hspec r).1 hr with ⟨-, rfl⟩ | ⟨haddr, -⟩ | ⟨haddr, -⟩ | ⟨k, hk, haddr, hbase, -⟩ | ⟨-, rfl⟩
    · rfl
    · exact absurd haddr hset
    · exact absurd haddr hclear
    · exact absurd haddr (hmask k hk hbase)
    · rfl

end Sys2Proof.Machine
end

/-! The invariant of the state (10_state.md R27-R32, R236; 60_exceptions.md R221), kept by each operation on the state, hence by each command, each dispatcher step and each step of the machine. -/
section
namespace Sys2Proof.Machine

/-- An event that records no fault. -/
def Event.NoFault (e : Event) : Prop := ∀ c code, e ≠ .fault c code

/-- The lines of a flow's remainder lie below the line it handles (R179). -/
def Disp.Descends (x : Disp) : Prop :=
  ∀ rem l ph, x = .flow rem l ph → ∀ i, l.val ≤ i → rem.getLsbD i = false

/-- A CPU that exists is none of those that do not. -/
theorem cpu_ne_of_lt_of_le {n : Nat} {c k : CpuId} (hc : c.val < n) (hk : n ≤ k.val) : c ≠ k :=
  fun h => absurd (h ▸ hc) (Nat.not_lt.2 hk)

theorem cfgWellFormed_nslot {g : Cfg} (h : cfgWellFormed g = true) : g.nslot ≤ 64 := by
  simp only [cfgWellFormed, decide_eq_true_eq] at h
  obtain ⟨-, -, ⟨-, hslots⟩, -⟩ := h
  exact hslots

namespace State.Inv

variable {s : State}

/-! ### One field at a time -/

theorem statusSet (h : s.Inv) (v : Word) : (s.statusSet v).Inv := { h with }

theorem statusClear (h : s.Inv) (v : Word) : (s.statusClear v).Inv := { h with }

theorem causeSet (h : s.Inv) (v : Word) : (s.causeSet v).Inv := { h with }

theorem advance (h : s.Inv) : s.advance.Inv := { h with }

theorem setEntryListed (h : s.Inv) (c : CpuId) (b : Bool) : (s.setEntryListed c b).Inv := { h with }

theorem setReadData (h : s.Inv) (c : CpuId) (v : Word) : (s.setReadData c v).Inv := { h with }

theorem begin (h : s.Inv) {c : CpuId} (hc : c.val < s.cfg.ncpu) (x : Draw) (listed : Bool) :
    (s.begin c x listed).Inv :=
  { h with self := hc }

theorem popScheduled (h : s.Inv) : s.popScheduled.Inv := by
  unfold State.popScheduled
  split
  · exact { h with }
  · exact { h with }

theorem setMask (h : s.Inv) {c : CpuId} (hc : c.val < s.cfg.ncpu) (v : Word) : (s.setMask c v).Inv :=
  { h with absent := fun k hk => by simpa [cpu_ne_of_lt_of_le hc hk] using h.absent k hk }

theorem setMbox (h : s.Inv) {c : CpuId} (hc : c.val < s.cfg.ncpu) (v : Word) : (s.setMbox c v).Inv :=
  { h with absent := fun k hk => by simpa [cpu_ne_of_lt_of_le hc hk] using h.absent k hk }

theorem setOwner (h : s.Inv) (l : Line) {o : Option CpuId} (ho : ∀ c, o = some c → c.val < s.cfg.ncpu) :
    (s.setOwner l o).Inv :=
  { h with
    owners := fun l' c hc => by
      simp only [State.setOwner_owner, Fin.getElem_fin, getElem_set_slot] at hc
      split at hc
      · exact ho c hc
      · exact h.owners l' c hc }

theorem setBind (h : s.Inv) (l : Line) {b : BridgeSlot}
    (hb : b.bridge < s.cfg.nbridge ∧ b.slot < s.cfg.nslot) : (s.setBind l (some b)).Inv :=
  { h with
    bindings := fun l' b' hb' => by
      simp only [State.setBind_bind, Fin.getElem_fin, getElem_set_slot] at hb'
      split at hb'
      · cases hb'; exact hb
      · exact h.bindings l' b' hb' }

theorem setDisp (h : s.Inv) {c : CpuId} (hc : c.val < s.cfg.ncpu) {x : Disp} (hx : x.Descends) :
    (s.setDisp c x).Inv :=
  { h with
    absent := fun k hk => by simpa [cpu_ne_of_lt_of_le hc hk] using h.absent k hk
    scans := fun k rem l ph hflow => by
      simp only [State.setDisp_disp, Fin.getElem_fin, getElem_set_slot] at hflow
      split at hflow
      · exact hx rem l ph hflow
      · exact h.scans k rem l ph hflow }

theorem setSend (h : s.Inv) {c : CpuId} (hc : c.val < s.cfg.ncpu) {x : Send}
    (hx : ∀ t, x = .asserting t → t.val < s.cfg.ncpu) : (s.setSend c x).Inv :=
  { h with
    absent := fun k hk => by simpa [cpu_ne_of_lt_of_le hc hk] using h.absent k hk
    targets := fun k t hsend => by
      simp only [State.setSend_send, Fin.getElem_fin, getElem_set_slot] at hsend
      split at hsend
      · exact hx t hsend
      · exact h.targets k t hsend }

/-! ### The history -/

theorem append_hist (h : s.Inv) {es : List Event} (hes : ∀ e ∈ es, e.NoFault) :
    { s with hist := s.hist ++ es }.Inv := by
  obtain ⟨hrecorded, habsent⟩ := h.faults
  refine { h with faults := ⟨fun code hcode => ?_, fun hnone c code hmem => ?_⟩ }
  · obtain ⟨c, hmem⟩ := hrecorded code hcode
    exact ⟨c, List.mem_append_left _ hmem⟩
  · rcases List.mem_append.1 hmem with hold | hnew
    · exact habsent hnone c code hold
    · exact hes _ hnew c code rfl

theorem emit (h : s.Inv) {e : Event} (he : e.NoFault) : (s.emit e).Inv :=
  h.append_hist (by simpa using he)

theorem complete (h : s.Inv) (op : Op) (v : RespValue) : (s.complete op v).Inv :=
  (h.emit (e := .resp s.self op v) fun _ _ => by simp).advance

theorem raise (h : s.Inv) (code : FaultCode) : (s.raise code).Inv := by
  obtain ⟨hrecorded, habsent⟩ := h.faults
  refine { h with faults := ⟨fun code' hcode => ?_, fun hnone => ?_⟩ }
  · cases hfault : s.fault with
    | none =>
      rw [State.raise_of_unfaulted hfault] at hcode ⊢
      cases hcode
      exact ⟨s.self, by simp⟩
    | some old =>
      rw [State.raise_of_faulted hfault] at hcode ⊢
      obtain ⟨c, hmem⟩ := hrecorded code' hcode
      exact ⟨c, List.mem_append_left _ hmem⟩
  · cases hfault : s.fault <;> simp [hfault] at hnone

/-! ### Posted writes and bridges -/

theorem post (h : s.Inv) {p : Posted} (hp : p.bridge < s.cfg.nbridge ∧ p.slot < s.cfg.nslot) :
    (s.post p).Inv :=
  { h with
    posted := fun q hq => by
      rcases List.mem_append.1 hq with hold | hnew
      · exact h.posted q hold
      · rw [List.mem_singleton.1 hnew]; exact hp }

theorem flush (h : s.Inv) : s.flush.Inv :=
  { h with
    posted := fun _ hp => absurd hp List.not_mem_nil
    bridges := ⟨(foldl_length s.bq s.bridges).trans h.bridges.1,
      foldl_shaped (cfgWellFormed_nslot h.config) _ _ h.bridges.2 fun p hp => (h.posted p hp).2⟩ }

theorem bridgeStep (h : s.Inv) : s.bridgeStep.Inv := by
  unfold State.bridgeStep
  split
  · exact h
  · next p rest hbq =>
    have hp := h.posted p (by rw [hbq]; exact List.mem_cons_self)
    exact { h with
      posted := fun q hq => h.posted q (by rw [hbq]; exact List.mem_cons_of_mem p hq)
      bridges := ⟨(length_performPosted _ p).trans h.bridges.1,
        performPosted_shaped h.bridges.2 hp.2 (cfgWellFormed_nslot h.config)⟩ }

/-! ### The effects of commands and dispatcher steps -/

theorem endEntry (h : s.Inv) (listed : Bool) : (s.endEntry listed).Inv := by
  have hended : ((s.setDisp s.self .idle).respond .irqEntry .unit).Inv :=
    (h.setDisp h.self (by simp [Disp.Descends])).emit fun _ _ => by simp
  cases listed with
  | false => exact hended
  | true => exact hended.advance

theorem ackLine (h : s.Inv) (l : Line) : (s.ackLine l).Inv := h.statusClear _

theorem maskLine (h : s.Inv) (l : Line) : (s.maskLine l).Inv := by
  unfold State.maskLine
  split
  · next c hc => exact h.setMask (h.owners l c hc) _
  · exact h

theorem unmaskLine (h : s.Inv) (l : Line) : (s.unmaskLine l).Inv := by
  unfold State.unmaskLine
  split
  · next c hc => exact h.setMask (h.owners l c hc) _
  · exact h

theorem maskAckLine (h : s.Inv) (l : Line) : (s.maskAckLine l).Inv := (h.maskLine l).ackLine l

theorem startBridge (h : s.Inv) (l : Line) : (s.startBridge l).Inv := by
  cases hbind : s.bind[l] with
  | none => rwa [State.startBridge_unbound s hbind]
  | some b =>
    rw [State.startBridge_bound s hbind]
    have hslot := h.bindings l b hbind
    exact (((h.post hslot).post hslot).post hslot).flush

theorem startLine (h : s.Inv) (l : Line) : (s.startLine l).Inv := by
  have hchoice := ownerChoice_lt h.config l
  have howned := (h.setOwner l (o := some (ownerChoice s.cfg l)) (by rintro c ⟨⟩; exact hchoice)).statusClear
    (bit l.val)
  exact (howned.setMask hchoice _).startBridge l

theorem stopBridge (h : s.Inv) (l : Line) : (s.stopBridge l).Inv := by
  cases hbind : s.bind[l] with
  | none => rwa [State.stopBridge_unbound s hbind]
  | some b =>
    rw [State.stopBridge_bound s hbind]
    exact h.post (h.bindings l b hbind)

theorem stopLine (h : s.Inv) (l : Line) : (s.stopLine l).Inv :=
  ((h.maskLine l).stopBridge l).setOwner l (by simp)

theorem initController (h : s.Inv) : s.initController.Inv :=
  { h with
    owners := fun l c hc => by simp at hc
    absent := fun k (hk : s.cfg.ncpu ≤ k.val) => by simpa [hk] using h.absent k hk }

theorem receive (h : s.Inv) : s.receive.Inv := by
  have hdrained := (h.setMbox h.self 0).statusClear (bit (cfgIpiLine s.cfg s.self).val)
  refine hdrained.append_hist fun e he => ?_
  obtain ⟨a, -, rfl⟩ := List.mem_map.1 he
  intro _ _
  simp

theorem assertIpi (h : s.Inv) (t : CpuId) : (s.assertIpi t).Inv :=
  ((h.statusSet _).setSend h.self (by simp)).complete _ _

theorem devAssert (h : s.Inv) (l : Line) : (s.devAssert l).Inv := by
  unfold State.devAssert
  split
  · exact h.statusSet _
  · exact h

/-! ### Commands, accesses and dispatcher steps -/

theorem execOf {t : State} {i : Instr} (h : s.Inv) (he : ExecOf s i t) : t.Inv := by
  cases he with
  | raised => exact h.raise _
  | rdStatus | rdMask | rdCause | ownerOf | lookup => exact h.complete _ _
  | wrSet => exact (h.statusSet _).complete _ _
  | wrClear => exact (h.statusClear _).complete _ _
  | wrMask c d hc => exact (h.setMask hc d).complete _ _
  | assignRefused | startupBusy => exact (h.emit fun _ _ => by simp).complete _ _
  | assigned l c hc _ => exact (h.setOwner l (by rintro c' ⟨⟩; exact hc)).complete _ _
  | release l => exact (h.setOwner l (by simp)).complete _ _
  | bind l b slot hb hslot _ => exact (h.setBind l ⟨hb, hslot⟩).complete _ _
  | started l _ => exact (h.startLine l).complete _ _
  | shutdown l => exact (h.stopLine l).complete _ _
  | ack l => exact (h.ackLine l).complete _ _
  | mask l => exact (h.maskLine l).complete _ _
  | unmask l => exact (h.unmaskLine l).complete _ _
  | maskAck l => exact (h.maskAckLine l).complete _ _
  | ctrlInit => exact h.initController.complete _ _
  | cpuReset c hc => exact (h.setMask hc 0).complete _ _
  | entrySpurious => exact (h.emit fun _ _ => by simp).endEntry _
  | entered b _ _ =>
    exact ((h.emit fun _ _ => by simp).setDisp h.self (by simp [Disp.Descends])).setEntryListed _ _
  | ipiSend c d hc => exact (h.setMbox hc _).setSend h.self (by rintro t ⟨⟩; exact hc)
  | ipiReceive => exact h.receive.complete _ _

theorem accessOf {t : State} (h : s.Inv) (ha : AccessOf s t) : t.Inv := by
  cases ha with
  | raised => exact h.raise _
  | read v => exact (h.setReadData _ v).advance
  | set v => exact (h.statusSet v).advance
  | clear v => exact (h.statusClear v).advance
  | mask k v hk => exact (h.setMask hk v).advance

/-- A scan's remainder descends below the line it takes off. -/
theorem dispScan (h : s.Inv) (rem : Word) : (dispScan rem s).Inv := by
  unfold Machine.dispScan
  split
  · exact h.endEntry _
  · next l hl =>
    refine (h.emit fun _ _ => by simp).setDisp h.self ?_
    rintro rem' l' ph ⟨⟩ i hi
    obtain ⟨-, habove⟩ := msb_spec hl
    rcases Nat.eq_or_lt_of_le hi with rfl | hlt
    · rw [getLsbD_clearLine]; simp
    · rw [BitVec.getLsbD_and, habove i hlt, Bool.false_and]

theorem dispSnapSecond (h : s.Inv) (first : SnapFirst) (v : Word) : (dispSnapSecond first v s).Inv := by
  unfold Machine.dispSnapSecond
  split
  · exact (h.emit fun _ _ => by simp).endEntry _
  · exact h.setDisp h.self (by simp [Disp.Descends])

/-- The next phase of a flow keeps its line and its remainder. -/
theorem descends_of_flow (h : s.Inv) {c : CpuId} {rem : Word} {l : Line} {ph : FlowPhase}
    (hd : s.disp[c] = .flow rem l ph) (ph' : FlowPhase) : (Disp.flow rem l ph').Descends := by
  rintro _ _ _ ⟨⟩
  exact h.scans c rem l ph hd

theorem dispFlowPre (h : s.Inv) {rem : Word} {l : Line} (hd : s.disp[s.self] = .flow rem l .pre) :
    (dispFlowPre rem l s).Inv := by
  have hnext := h.descends_of_flow hd .handler
  unfold Machine.dispFlowPre
  split
  · exact (h.maskAckLine l).setDisp (by simpa [SelfExists] using h.self) hnext
  · exact (h.ackLine l).setDisp h.self hnext

theorem dispFlowHandler (h : s.Inv) {rem : Word} {l : Line} (hd : s.disp[s.self] = .flow rem l .handler) :
    (dispFlowHandler rem l s).Inv := by
  have hnext := h.descends_of_flow hd .post
  unfold Machine.dispFlowHandler
  split
  · exact h.receive.setDisp h.self hnext
  · exact (h.emit fun _ _ => by simp).setDisp h.self hnext

theorem dispFlowPost (h : s.Inv) (rem : Word) (l : Line) : (dispFlowPost rem l s).Inv :=
  (h.unmaskLine l).setDisp (by simpa [SelfExists] using h.self) (by simp [Disp.Descends])

theorem dispatchStep (h : s.Inv) : s.dispatchStep.Inv := by
  unfold State.dispatchStep
  split
  case h_1 => exact h
  case h_2 | h_4 => exact (h.emit fun _ _ => by simp).endEntry _
  case h_3 | h_5 | h_6 => exact h.setDisp h.self (by simp [Disp.Descends])
  case h_7 => exact ((h.statusClear _).emit fun _ _ => by simp).endEntry _
  case h_8 => exact h.dispSnapSecond _ _
  case h_9 => exact h.dispScan _
  case h_10 hd => exact h.dispFlowPre hd
  case h_11 hd => exact h.dispFlowHandler hd
  case h_12 => exact h.dispFlowPost _ _

end State.Inv

/-! ### The claims -/

/-- Settles O44: each way to step is composed of operations that keep the invariant. -/
theorem everyStepKeepsTheInvariant : Obligations.EveryStepKeepsTheInvariant := by
  unfold Obligations.EveryStepKeepsTheInvariant
  intro s t hinv hstep
  have hpop := hinv.popScheduled
  have hcfg : s.popScheduled.cfg = s.cfg := s.popScheduled_cfg
  have hbegin {c : CpuId} (hc : c.val < s.cfg.ncpu) := hpop.begin (hcfg ▸ hc)
  cases (step_cases hstep).2.2 with
  | stutter => exact hpop
  | command c x w d i _ hc _ _ _ _ _ he => exact (hbegin hc x true).execOf he
  | entry c x _ hc _ _ he => exact (hbegin hc x false).execOf he
  | deliver c x _ hc _ he => exact (hbegin hc x false).execOf he
  | assertIpi c x tgt hc => exact (hbegin hc x true).assertIpi tgt
  | dispatch c x hc => exact (hbegin hc x true).dispatchStep
  | decodeFault c x w d code hc => exact (hbegin hc x true).raise code
  | access c x a _ hc _ _ _ _ ha => exact (hbegin hc x true).accessOf ha
  | devAssert l => exact hpop.devAssert l
  | devCause v => exact hpop.causeSet v
  | bridge => exact hpop.bridgeStep

/-- Settles O46: the tables hold one value in every slot. -/
theorem resetHoldsTheGivenValues : Obligations.ResetHoldsTheGivenValues := by
  unfold Obligations.ResetHoldsTheGivenValues
  exact ⟨fun l => by simp [State.reset], fun c => by simp [State.reset], rfl, rfl, rfl⟩

theorem Bridge.powerOn_shaped (n : Nat) : (Bridge.powerOn n).shaped n :=
  ⟨List.length_replicate, fun i _ => by simp [Bridge.powerOn]⟩

/-- Settles O45: the tables that name a line, a slot or a CPU are empty, and the bridges are shaped. -/
theorem resetSatisfiesTheInvariant : Obligations.ResetSatisfiesTheInvariant := by
  unfold Obligations.ResetSatisfiesTheInvariant
  obtain ⟨htables, hcpus, hbq, hfault, hhist⟩ := resetHoldsTheGivenValues
  exact {
    config := by decide
    owners := fun l c hc => by simp [(htables l).1] at hc
    bindings := fun l b hb => by simp [(htables l).2] at hb
    posted := fun p hp => by simp [hbq] at hp
    bridges := ⟨List.length_replicate, fun b hb => by
      rw [List.eq_of_mem_replicate hb]; exact Bridge.powerOn_shaped _⟩
    absent := fun c _ => by
      obtain ⟨hmbox, hdisp, hsend, -⟩ := hcpus c
      exact ⟨by simp [State.reset], hmbox, hdisp, hsend⟩
    targets := fun c t ht => by simp [(hcpus c).2.2.1] at ht
    scans := fun c rem l ph hd => by simp [(hcpus c).2.1] at hd
    faults := ⟨fun code hcode => by simp [hfault] at hcode, fun _ c code => by simp [hhist]⟩
    self := by unfold SelfExists; decide }

end Sys2Proof.Machine
end

/-! The snapshot discipline of a dispatch entry (43_dispatch.md R179-R184): the lines an entry has dispatched and those it has still to dispatch make up one list, which no step changes. -/
section
namespace Sys2Proof.Machine

/-- The lines that CPU `c` has dispatched, then those that its dispatcher has still to dispatch. -/
def dispatchList (c : CpuId) (s : State) : List Line := dispatchesOf c s.hist ++ s.disp[c].toDispatch

theorem dispatchesOf_receive (c : CpuId) (s : State) : dispatchesOf c s.receive.hist = dispatchesOf c s.hist := by
  rw [State.receive_hist, dispatchesOf_append, dispatchesOf_actions, List.append_nil]

theorem Disp.ne_idle_of_scanning {d : Disp} (h : d.scanning = true) : d ≠ .idle := by
  rintro rfl
  cases h

/-! ### Commands dispatch no line -/

/-- No command dispatches a line. -/
theorem ExecOf.dispatchesOf_eq {s t : State} {i : Instr} (c : CpuId) (h : ExecOf s i t) :
    dispatchesOf c t.hist = dispatchesOf c s.hist := by
  cases h with
  | ipiReceive =>
    rw [State.complete_hist, dispatchesOf_append, dispatchesOf_receive]
    simp [dispatchesOf, dispatchedBy]
  | _ => simp [dispatchesOf, dispatchedBy]

/-- A command leaves a dispatcher that is busy: an entry begins only on an Idle one (R170). -/
theorem ExecOf.disp_of_busy {s t : State} {i : Instr} {c : CpuId} (h : ExecOf s i t) (hbusy : s.disp[c] ≠ .idle) :
    t.disp[c] = s.disp[c] := by
  cases h with
  | entrySpurious hidle | entered _ hidle =>
    have hother : s.self ≠ c := fun hself => hbusy (hself ▸ hidle)
    simp [hother]
  | _ => simp

theorem ExecOf.dispatchList_eq {s t : State} {i : Instr} {c : CpuId} (h : ExecOf s i t)
    (hbusy : s.disp[c] ≠ .idle) : dispatchList c t = dispatchList c s := by
  rw [dispatchList, h.dispatchesOf_eq, h.disp_of_busy hbusy, dispatchList]

/-! ### The dispatcher steps of a scan -/

section
variable {s : State} {rem : Word} {l : Line}

theorem dispatchStep_of_scan (hd : s.disp[s.self] = .scan rem) : s.dispatchStep = dispScan rem s := by
  simp only [State.dispatchStep, hd]

theorem dispatchStep_of_flowPre (hd : s.disp[s.self] = .flow rem l .pre) :
    s.dispatchStep = dispFlowPre rem l s := by
  simp only [State.dispatchStep, hd]

theorem dispatchStep_of_flowHandler (hd : s.disp[s.self] = .flow rem l .handler) :
    s.dispatchStep = dispFlowHandler rem l s := by
  simp only [State.dispatchStep, hd]

theorem dispatchStep_of_flowPost (hd : s.disp[s.self] = .flow rem l .post) :
    s.dispatchStep = dispFlowPost rem l s := by
  simp only [State.dispatchStep, hd]

variable (s rem l)

@[simp] theorem dispFlowPre_disp : (dispFlowPre rem l s).disp = s.disp.set s.self (.flow rem l .handler) := by
  unfold dispFlowPre; split <;> simp

@[simp] theorem dispFlowPre_hist : (dispFlowPre rem l s).hist = s.hist := by
  unfold dispFlowPre; split <;> simp

@[simp] theorem dispFlowHandler_disp :
    (dispFlowHandler rem l s).disp = s.disp.set s.self (.flow rem l .post) := by
  unfold dispFlowHandler; split <;> simp

@[simp] theorem dispFlowPost_disp : (dispFlowPost rem l s).disp = s.disp.set s.self (.scan rem) := by
  simp [dispFlowPost]

@[simp] theorem dispFlowPost_hist : (dispFlowPost rem l s).hist = s.hist := by
  simp [dispFlowPost]

theorem dispatchesOf_dispFlowHandler (c : CpuId) :
    dispatchesOf c (dispFlowHandler rem l s).hist = dispatchesOf c s.hist := by
  unfold dispFlowHandler
  split
  · exact dispatchesOf_receive c s
  · exact by simp [dispatchesOf, dispatchedBy]

end

theorem dispScan_zero (s : State) : dispScan 0 s = s.finishEntry := by
  simp only [dispScan, (msb_eq_none 0).2 rfl]

theorem dispScan_of_msb {rem : Word} {l : Line} (hl : msb rem = some l) (s : State) :
    dispScan rem s = (s.emit (.dispatch s.self l)).setDisp s.self (.flow (rem &&& ~~~(bit l.val)) l .pre) := by
  simp only [dispScan, hl]

/-! ### What `DISP` holds after a step of a scan -/

section
variable {s : State} {c : CpuId} {rem : Word} {l : Line} (hself : s.self = c)
include hself

theorem disp_after_scan (hd : s.disp[c] = .scan rem) (hl : msb rem = some l) :
    s.dispatchStep.disp[c] = .flow (rem &&& ~~~(bit l.val)) l .pre := by
  subst hself
  rw [dispatchStep_of_scan hd, dispScan_of_msb hl]
  simp

theorem disp_after_scan_zero (hd : s.disp[c] = .scan 0) : s.dispatchStep.disp[c] = .idle := by
  subst hself
  rw [dispatchStep_of_scan hd, dispScan_zero]
  simp [State.finishEntry]

theorem disp_after_flowPre (hd : s.disp[c] = .flow rem l .pre) :
    s.dispatchStep.disp[c] = .flow rem l .handler := by
  subst hself
  rw [dispatchStep_of_flowPre hd]
  simp

theorem disp_after_flowHandler (hd : s.disp[c] = .flow rem l .handler) :
    s.dispatchStep.disp[c] = .flow rem l .post := by
  subst hself
  rw [dispatchStep_of_flowHandler hd]
  simp

theorem disp_after_flowPost (hd : s.disp[c] = .flow rem l .post) : s.dispatchStep.disp[c] = .scan rem := by
  subst hself
  rw [dispatchStep_of_flowPost hd]
  simp

end

/-! ### The list is conserved -/

/-- A dispatcher step of another CPU dispatches no line for this one. -/
theorem dispatchesOf_dispatchStep_other {s : State} {c : CpuId} (hother : s.self ≠ c) :
    dispatchesOf c s.dispatchStep.hist = dispatchesOf c s.hist := by
  unfold State.dispatchStep
  split
  case h_1 | h_3 | h_5 | h_6 => rfl
  case h_2 | h_4 => simp [dispCpucnt, dispHcnt, State.finishEntry, dispatchesOf, dispatchedBy]
  case h_7 => simp [dispErrAck, State.finishEntry, dispatchesOf, dispatchedBy]
  case h_8 =>
    unfold dispSnapSecond
    split <;> simp [State.finishEntry, dispatchesOf, dispatchedBy]
  case h_9 =>
    unfold dispScan
    split <;> simp [State.finishEntry, dispatchesOf, dispatchedBy, hother]
  case h_10 => rw [dispFlowPre_hist]
  case h_11 => exact dispatchesOf_dispFlowHandler ..
  case h_12 => rw [dispFlowPost_hist]

/-- A dispatcher step past the snapshot moves one line from the rest of the list to its front part, or none. -/
theorem dispatchList_dispatchStep_self {s : State} (hscan : s.disp[s.self].scanning = true) :
    dispatchList s.self s.dispatchStep = dispatchList s.self s := by
  cases hd : s.disp[s.self] with
  | scan rem =>
    rw [dispatchStep_of_scan hd]
    cases hl : msb rem with
    | none =>
      obtain rfl := (msb_eq_none rem).1 hl
      rw [dispScan_zero, dispatchList, dispatchList, hd]
      simp [State.finishEntry, dispatchesOf, dispatchedBy, Disp.toDispatch]
    | some l =>
      rw [dispScan_of_msb hl, dispatchList, dispatchList, hd]
      simp [dispatchesOf, dispatchedBy, Disp.toDispatch, bitsDesc_of_msb hl]
  | flow rem l ph =>
    cases ph with
    | pre =>
      rw [dispatchStep_of_flowPre hd, dispatchList, dispatchList, hd, dispFlowPre_hist, dispFlowPre_disp]
      simp [Disp.toDispatch]
    | handler =>
      rw [dispatchStep_of_flowHandler hd, dispatchList, dispatchList, hd, dispatchesOf_dispFlowHandler,
        dispFlowHandler_disp]
      simp [Disp.toDispatch]
    | post =>
      rw [dispatchStep_of_flowPost hd, dispatchList, dispatchList, hd, dispFlowPost_hist, dispFlowPost_disp]
      simp [Disp.toDispatch]
  | idle | band | errAck | genHalf => rw [hd] at hscan; cases hscan

/-- A dispatcher step of any CPU conserves the list of one that is past its snapshot. -/
theorem dispatchList_dispatchStep {s : State} {c : CpuId} (hscan : s.disp[c].scanning = true) :
    dispatchList c s.dispatchStep = dispatchList c s := by
  by_cases hself : s.self = c
  · subst hself
    exact dispatchList_dispatchStep_self hscan
  · rw [dispatchList, dispatchesOf_dispatchStep_other hself, (dispatch_private s c hself).1, dispatchList]

/-- Settles O53: a command or an entry neither dispatches nor touches a busy dispatcher, a dispatcher step
conserves the list, and every other step leaves the dispatchers and dispatches nothing. -/
theorem everyStepConservesTheDispatchList : Obligations.EveryStepConservesTheDispatchList := by
  unfold Obligations.EveryStepConservesTheDispatchList
  intro s t c hscan hstep
  have hbusy := Disp.ne_idle_of_scanning hscan
  have hpop : dispatchList c s.popScheduled = dispatchList c s := by simp [dispatchList]
  refine Eq.trans (b := dispatchList c s.popScheduled) ?_ hpop
  cases (step_cases hstep).2.2
  case command he | entry he | deliver he => exact he.dispatchList_eq (by simpa using hbusy)
  case dispatch => exact dispatchList_dispatchStep (by simpa using hscan)
  case access ha => cases ha <;> simp [dispatchList, dispatchesOf, dispatchedBy]
  all_goals simp [dispatchList, dispatchesOf, dispatchedBy]

/-! ### An uninterrupted scan -/

/-- CPU `c`, which exists, takes the next `n` steps with draws `x`; `rest` follows. -/
structure State.OwnsSteps (s : State) (c : CpuId) (x : Draw) (n : Nat) (rest : List Scheduled) : Prop where
  config : cfgWellFormed s.cfg = true
  unfaulted : s.fault = none
  present : c.val < s.cfg.ncpu
  scheduled : s.sched = List.replicate n (.agent (.cpu c x)) ++ rest

section
variable {s : State} {c : CpuId} {x : Draw} {n : Nat} {rest : List Scheduled}

theorem State.OwnsSteps.cpuTakes (h : s.OwnsSteps c x (n + 1) rest) :
    s.CpuTakes c x (List.replicate n (.agent (.cpu c x)) ++ rest) :=
  ⟨⟨h.config, h.unfaulted, h.scheduled⟩, h.present⟩

/-- A step past the snapshot is a dispatcher step, which decides what `DISP` holds next; it conserves the list, and
the CPU takes the next steps too. -/
theorem State.OwnsSteps.step {d : Disp} (h : s.OwnsSteps c x (n + 1) rest) (hscan : s.disp[c].scanning = true)
    (hnext : ∀ u : State, u.self = c → u.disp[c] = s.disp[c] → u.dispatchStep.disp[c] = d) :
    ∃ t, Machine.step s = .next t ∧ t.OwnsSteps c x n rest ∧ t.disp[c] = d
      ∧ dispatchList c t = dispatchList c s := by
  let u := s.issued c x true (List.replicate n (.agent (.cpu c x)) ++ rest)
  have hconserved : dispatchList c u.dispatchStep = dispatchList c u := dispatchList_dispatchStep hscan
  have howns : u.dispatchStep.OwnsSteps c x n rest :=
    ⟨by simpa [u] using h.config, by simpa [u] using h.unfaulted, by simpa [u] using h.present, by simp [u]⟩
  exact ⟨u.dispatchStep, step_of_busy h.cpuTakes (Disp.ne_idle_of_scanning hscan), howns, hnext u rfl rfl,
    hconserved⟩

/-- The four steps of a scan's next line: it is dispatched, its flow runs, and the scan goes on with the lines
below it. -/
theorem State.OwnsSteps.run_line {rem : Word} {l : Line} (h : s.OwnsSteps c x (n + 4) rest)
    (hd : s.disp[c] = .scan rem) (hl : msb rem = some l) :
    ∃ t : State, t.OwnsSteps c x n rest ∧ t.disp[c] = .scan (rem &&& ~~~(bit l.val))
      ∧ dispatchList c t = dispatchList c s
      ∧ ∀ k, Host.Core.run Sys2Proof.core (k + 4) s = Host.Core.run Sys2Proof.core k t := by
  obtain ⟨t1, hstep1, h1, hd1, hlist1⟩ := h.step (by rw [hd]; rfl)
    fun u hself hdisp => disp_after_scan hself (hdisp.trans hd) hl
  obtain ⟨t2, hstep2, h2, hd2, hlist2⟩ := h1.step (by rw [hd1]; rfl)
    fun u hself hdisp => disp_after_flowPre hself (hdisp.trans hd1)
  obtain ⟨t3, hstep3, h3, hd3, hlist3⟩ := h2.step (by rw [hd2]; rfl)
    fun u hself hdisp => disp_after_flowHandler hself (hdisp.trans hd2)
  obtain ⟨t4, hstep4, h4, hd4, hlist4⟩ := h3.step (by rw [hd3]; rfl)
    fun u hself hdisp => disp_after_flowPost hself (hdisp.trans hd3)
  refine ⟨t4, h4, hd4, by rw [hlist4, hlist3, hlist2, hlist1], fun k => ?_⟩
  exact (run_of_step hstep1).trans ((run_of_step hstep2).trans ((run_of_step hstep3).trans (run_of_step hstep4)))

/-- The last step of a scan ends the entry. -/
theorem State.OwnsSteps.step_end (h : s.OwnsSteps c x (n + 1) rest) (hd : s.disp[c] = .scan 0) :
    ∃ t, Machine.step s = .next t ∧ t.OwnsSteps c x n rest ∧ t.disp[c] = .idle
      ∧ dispatchList c t = dispatchList c s ∧ t.hist = s.hist ++ [.resp c .irqEntry .unit] := by
  obtain ⟨t, hstep, ht, hidle, hlist⟩ := h.step (by rw [hd]; rfl)
    fun u hself hdisp => disp_after_scan_zero hself (hdisp.trans hd)
  refine ⟨t, hstep, ht, hidle, hlist, ?_⟩
  cases hstep.symm.trans (step_of_scan_zero h.cpuTakes hd)
  rfl

end

theorem bitsDesc_eq_nil {v : Word} (h : bitsDesc v = []) : v = 0 :=
  (msb_eq_none v).1 (by rw [msb, h]; rfl)

theorem bitsDesc_eq_cons {v : Word} {l : Line} {ls : List Line} (h : bitsDesc v = l :: ls) :
    msb v = some l ∧ bitsDesc (v &&& ~~~(bit l.val)) = ls := by
  have hl : msb v = some l := by rw [msb, h]; rfl
  have htail := bitsDesc_of_msb hl
  rw [h] at htail
  exact ⟨hl, (List.cons_inj_right l).1 htail.symm⟩

/-- By induction on the lines of the scan: four steps for each, and one that ends the entry. -/
theorem State.OwnsSteps.run_scan {s : State} {c : CpuId} {x : Draw} {rest : List Scheduled} {rem : Word}
    {ls : List Line} (hls : bitsDesc rem = ls) (h : s.OwnsSteps c x (4 * ls.length + 1) rest)
    (hd : s.disp[c] = .scan rem) :
    ∃ t : State, Host.Core.run Sys2Proof.core (4 * ls.length + 1) s = .next t ∧ t.OwnsSteps c x 0 rest
      ∧ t.disp[c] = .idle ∧ dispatchList c t = dispatchList c s
      ∧ ∃ hist, t.hist = hist ++ [.resp c .irqEntry .unit] := by
  induction ls generalizing s rem with
  | nil =>
    obtain rfl := bitsDesc_eq_nil hls
    obtain ⟨t, hstep, ht, hidle, hlist, hhist⟩ := h.step_end hd
    exact ⟨t, run_of_step hstep, ht, hidle, hlist, s.hist, hhist⟩
  | cons l ls ih =>
    obtain ⟨hl, htail⟩ := bitsDesc_eq_cons hls
    obtain ⟨u, hu, hdu, hlist, hrun⟩ := State.OwnsSteps.run_line (n := 4 * ls.length + 1) h hd hl
    obtain ⟨t, hrunt, ht, hidle, hlistt, hhist⟩ := ih htail hu hdu
    exact ⟨t, (hrun _).trans hrunt, ht, hidle, hlistt.trans hlist, hhist⟩

/-- Settles O54: the run ends the entry, and the list it conserves is then all dispatched. -/
theorem uninterruptedScanDispatchesItsSnapshot : Obligations.UninterruptedScanDispatchesItsSnapshot := by
  unfold Obligations.UninterruptedScanDispatchesItsSnapshot
  intro s c x rest snap hcfg hfault hpresent hd hsched
  have h : s.OwnsSteps c x (4 * (bitsDesc snap).length + 1) rest := ⟨hcfg, hfault, hpresent, hsched⟩
  obtain ⟨t, hrun, ht, hidle, hlist, hhist⟩ := h.run_scan rfl hd
  refine ⟨t, hrun, hidle, ht.unfaulted, ht.scheduled, ?_, hhist⟩
  rw [dispatchList, dispatchList, hidle, hd] at hlist
  simpa [Disp.toDispatch] using hlist

end Sys2Proof.Machine
end

/-! Laws of the controller (42_controller.md R143-R159; 70_reset_and_hazards.md R273): commands in a row, and the per-line views. -/
section
namespace Sys2Proof.Machine

/-! ### What a completed command leaves in each field -/

section
variable (s t : State) (op : Op) (v : RespValue)

@[simp] theorem State.answered_cfg : (s.answered t op v).cfg = t.cfg := rfl
@[simp] theorem State.answered_status : (s.answered t op v).status = t.status := rfl
@[simp] theorem State.answered_mask : (s.answered t op v).mask = t.mask := rfl
@[simp] theorem State.answered_owner : (s.answered t op v).owner = t.owner := rfl
@[simp] theorem State.answered_bind : (s.answered t op v).bind = t.bind := rfl
@[simp] theorem State.answered_bridges : (s.answered t op v).bridges = t.bridges := rfl
@[simp] theorem State.answered_bq : (s.answered t op v).bq = t.bq := rfl
@[simp] theorem State.answered_hist : (s.answered t op v).hist = t.hist ++ [.resp s.self op v] := rfl

end

/-! ### MASK_ACK, and commands repeated -/

/-- Settles O35: MASK_ACK is the effect of MASK followed by that of ACK. -/
theorem maskAckEqualsMaskThenAck : Obligations.MaskAckEqualsMaskThenAck := by
  unfold Obligations.MaskAckEqualsMaskThenAck
  exact fun s l => ⟨_, _, _, exec_maskAck_answered s l, exec_mask_answered s l, exec_ack_answered _ l, rfl⟩

/-- ACK of a line whose bit is clear changes nothing (R145). -/
theorem State.ackLine_of_clear {s : State} {l : Line} (h : s.status.getLsbD l.val = false) : s.ackLine l = s := by
  have hstatus : s.status &&& ~~~(bit l.val) = s.status := by
    refine word_ext fun i => ?_
    rw [getLsbD_clearLine]
    by_cases hi : i = l
    · rw [hi, h, Bool.false_and]
    · simp [hi]
  rw [State.ackLine, State.statusClear, hstatus]

theorem ackLine_own_bit (s : State) (l : Line) : (s.ackLine l).status.getLsbD l.val = false := by
  rw [State.ackLine_bit]
  simp

/-- A second ACK finds the line's bit clear (R145). -/
theorem exec_ack_ack (s : State) (l : Line) :
    ∃ t1 t2, exec (.ack l.val) s = .next t1 ∧ exec (.ack l.val) t1 = .next t2
      ∧ { t2 with hist := t1.hist, index := t1.index } = t1 := by
  refine ⟨_, _, exec_ack_answered s l, exec_ack_answered _ l, ?_⟩
  rw [State.ackLine_of_clear (s := s.answered (s.ackLine l) .ack .unit) (ackLine_own_bit s l)]
  rfl

/-- STARTUP of an Active line changes nothing but HIST and the program index (R141). -/
theorem exec_startup_active_unchanged {s : State} {l : Line} (ho : s.owner[l] ≠ none) :
    ∃ t, exec (.startup l.val) s = .next t ∧ { t with hist := s.hist, index := s.index } = s
      ∧ t.hist = s.hist ++ [.violation l, .resp s.self .startup (.startup .busy)] :=
  ⟨_, exec_startup_active_answered s l ho, rfl, by simp⟩

/-- STARTUP leaves its line with an owner. -/
theorem exec_startup_owned (s : State) (l : Line) :
    ∃ t, exec (.startup l.val) s = .next t ∧ t.owner[l] ≠ none := by
  by_cases ho : s.owner[l] = none
  · exact ⟨_, exec_startup_idle_answered s l ho, by simp⟩
  · exact ⟨_, exec_startup_active_answered s l ho, ho⟩

/-- Settles O36: the second ACK finds the bit clear, and the second STARTUP finds the line Active. -/
theorem secondAckAndSecondStartupChangeNothing : Obligations.SecondAckAndSecondStartupChangeNothing := by
  unfold Obligations.SecondAckAndSecondStartupChangeNothing
  refine fun s l => ⟨exec_ack_ack s l, ?_⟩
  obtain ⟨t1, hfirst, howned⟩ := exec_startup_owned s l
  obtain ⟨t2, hsecond, hsame, hhist⟩ := exec_startup_active_unchanged howned
  exact ⟨t1, t2, hfirst, hsecond, hsame, hhist⟩

/-! ### STARTUP followed by SHUTDOWN -/

/-- STARTUP of an Idle line, then SHUTDOWN: the owner and the mask registers that both leave. -/
theorem exec_startup_shutdown {s : State} {l : Line} (ho : s.owner[l] = none) :
    ∃ t1 t2, exec (.startup l.val) s = .next t1 ∧ exec (.shutdown l.val) t1 = .next t2
      ∧ t1 = s.answered (s.startLine l) .startup (.startup .ok)
      ∧ t2 = t1.answered (t1.stopLine l) .shutdown .unit :=
  ⟨_, _, exec_startup_idle_answered s l ho, exec_shutdown_answered _ l, rfl, rfl⟩

/-- The mask bits that STARTUP and then SHUTDOWN leave: the line's bit at the chosen owner is clear. -/
theorem startLine_stopLine_bit {s t : State} {l : Line} (hmask : t.mask = (s.startLine l).mask)
    (howner : t.owner = (s.startLine l).owner) (k : CpuId) (i : Line) :
    (t.stopLine l).mask[k].getLsbD i.val
      = (s.mask[k].getLsbD i.val && !(decide (i = l) && decide (ownerChoice s.cfg l = k))) := by
  have hbit : t.mask[k].getLsbD i.val
      = (s.mask[k].getLsbD i.val || (decide (i = l) && decide (ownerChoice s.cfg l = k))) := by
    rw [hmask, State.startLine_bit]
  have hchosen : t.owner[l] = some (ownerChoice s.cfg l) := by simp [howner]
  rw [State.stopLine_mask, State.maskLine_bit, hbit, hchosen]
  simp only [Option.some.injEq]
  cases decide (i = l) && decide (ownerChoice s.cfg l = k) <;> simp

/-- Settles O37: SHUTDOWN clears the owner and the one mask bit that STARTUP set. -/
theorem startupThenShutdownRestoresIdle : Obligations.StartupThenShutdownRestoresIdle := by
  unfold Obligations.StartupThenShutdownRestoresIdle
  intro s l ho
  obtain ⟨t1, t2, hstart, hstop, ht1, ht2⟩ := exec_startup_shutdown ho
  have hbits := startLine_stopLine_bit (s := s) (t := t1) (l := l) (by rw [ht1, State.answered_mask])
    (by rw [ht1, State.answered_owner])
  refine ⟨t1, t2, hstart, hstop, by simp [ht2], ?_, fun k i hother => ?_⟩
  · rw [ht2, State.answered_mask, hbits]
    simp
  · rw [ht2, State.answered_mask, hbits]
    rcases hother with hk | hi
    · simp [Ne.symm hk]
    · simp [hi]

/-! ### The per-line views -/

section
variable {s t : State} {l : Line} {c : CpuId}

theorem lineView_eq_idle_iff : lineView s l = .idle ↔ s.owner[l] = none := by
  unfold lineView
  split
  · next h => simp [h]
  · next h => split <;> simp [h]

theorem lineView_of_owner (h : s.owner[l] = some c) :
    lineView s l = if s.mask[c].getLsbD l.val then .enabled c else .masked c := by
  simp only [lineView, h]

theorem owner_of_lineView (h : lineView s l = .enabled c ∨ lineView s l = .masked c) : s.owner[l] = some c := by
  cases ho : s.owner[l] with
  | none =>
    rw [lineView_eq_idle_iff.2 ho] at h
    simp at h
  | some o =>
    rw [lineView_of_owner ho] at h
    split at h <;> simpa using h

/-- A line's view depends on the ownership table and the mask registers alone (R39). -/
theorem lineView_congr (howner : t.owner = s.owner) (hmask : t.mask = s.mask) : lineView t l = lineView s l := by
  simp only [lineView, howner, hmask]

theorem lineView_enabled (ho : t.owner[l] = some c) (hbit : t.mask[c].getLsbD l.val = true) :
    lineView t l = .enabled c := by
  rw [lineView_of_owner ho, if_pos hbit]

theorem lineView_masked (ho : t.owner[l] = some c) (hbit : t.mask[c].getLsbD l.val = false) :
    lineView t l = .masked c := by
  rw [lineView_of_owner ho, hbit, if_neg Bool.false_ne_true]

theorem maskLine_own_bit (ho : s.owner[l] = some c) : (s.maskLine l).mask[c].getLsbD l.val = false := by
  rw [State.maskLine_bit]
  simp [ho]

theorem unmaskLine_own_bit (ho : s.owner[l] = some c) : (s.unmaskLine l).mask[c].getLsbD l.val = true := by
  rw [State.unmaskLine_bit]
  simp [ho]

/-- MASK of an Idle line is a no-op (R123). -/
theorem State.maskLine_unowned (ho : s.owner[l] = none) : s.maskLine l = s := by
  simp only [State.maskLine, ho]

/-- UNMASK of an Idle line is a no-op (R123). -/
theorem State.unmaskLine_unowned (ho : s.owner[l] = none) : s.unmaskLine l = s := by
  simp only [State.unmaskLine, ho]

end

/-- STARTUP of an Idle line leaves it enabled for the owner it chooses. -/
theorem lineView_startLine (s : State) (l : Line) :
    lineView (s.startLine l) l = .enabled (ownerChoice s.cfg l) := by
  refine lineView_enabled (by simp) ?_
  rw [State.startLine_bit]
  simp

/-- Settles O39: the effect of each command on the line's owner and on its bit at the owner. -/
theorem lineViewTransitions : Obligations.LineViewTransitions := by
  unfold Obligations.LineViewTransitions
  refine fun s l c => ⟨fun hidle => ?_, fun hactive => ?_, ?_, fun hactive => ⟨?_, ?_, ?_⟩,
    fun hidle => ⟨?_, ?_, ?_⟩, ?_⟩
  · exact ⟨_, exec_startup_idle_answered s l (lineView_eq_idle_iff.1 hidle), lineView_startLine s l⟩
  · exact ⟨_, exec_startup_active_answered s l (mt lineView_eq_idle_iff.2 hactive), lineView_congr rfl rfl⟩
  · exact ⟨_, exec_shutdown_answered s l, lineView_eq_idle_iff.2 (by simp)⟩
  · have ho := owner_of_lineView hactive
    exact ⟨_, exec_mask_answered s l, lineView_masked (by simpa using ho) (maskLine_own_bit ho)⟩
  · have ho := owner_of_lineView hactive
    exact ⟨_, exec_unmask_answered s l,
      lineView_enabled (by simpa using ho) (unmaskLine_own_bit ho)⟩
  · have ho := owner_of_lineView hactive
    exact ⟨_, exec_maskAck_answered s l, lineView_masked (by simpa using ho) (maskLine_own_bit ho),
      by simpa using ackLine_own_bit s l⟩
  · have ho := lineView_eq_idle_iff.1 hidle
    exact ⟨_, exec_mask_answered s l, lineView_eq_idle_iff.2 (by simpa using ho),
      by simp [State.maskLine_unowned ho]⟩
  · have ho := lineView_eq_idle_iff.1 hidle
    exact ⟨_, exec_unmask_answered s l, lineView_eq_idle_iff.2 (by simpa using ho),
      by simp [State.unmaskLine_unowned ho]⟩
  · have ho := lineView_eq_idle_iff.1 hidle
    exact ⟨_, exec_maskAck_answered s l, lineView_eq_idle_iff.2 (by simpa using ho),
      by simp [State.maskLine_unowned ho], by simpa using ackLine_own_bit s l⟩
  · exact ⟨_, exec_ack_answered s l, lineView_congr rfl rfl, ackLine_own_bit s l⟩

/-! ### A flow whose line lost its owner -/

/-- Settles O40: with no owner, MASK and UNMASK are no-ops, and ACK clears the line's pending bit all the same. -/
theorem shutdownDuringServiceIsTolerated : Obligations.ShutdownDuringServiceIsTolerated := by
  unfold Obligations.ShutdownDuringServiceIsTolerated
  intro s c x rest rem l hcpu ho
  have hissued : (s.issued c x true rest).owner[l] = none := ho
  refine ⟨fun hpre => ?_, fun hpost => ?_⟩
  · cases hop : cfgFlow s.cfg l with
    | maskAck =>
      exact ⟨_, step_of_flowPre_maskAck hcpu hpre hop, by simp [State.maskLine_unowned hissued], by simp,
        by simpa using ackLine_own_bit (s.issued c x true rest) l, by simp⟩
    | ack =>
      exact ⟨_, step_of_flowPre_ack hcpu hpre hop, by simp, by simp, ackLine_own_bit s l, by simp⟩
  · exact ⟨_, step_of_flowPost hcpu hpost, by simp [State.unmaskLine_unowned hissued], by simp, by simp, by simp⟩

end Sys2Proof.Machine
end

/-! The slot of a bridge-bound line (42_controller.md R159; 70_reset_and_hazards.md R270): what the writes of a STARTUP and of a SHUTDOWN leave in it. -/
section
namespace Sys2Proof.Machine

/-! ### The bridge that a posted write reaches -/

section
variable {bs : List Bridge} {old : Bridge} {b : BridgeSlot} {r : RouteValue}

theorem getElem?_performPosted_self {p : Posted} (h : bs[p.bridge]? = some old) :
    (performPosted bs p)[p.bridge]? = some (old.perform p.slot p.write) := by
  obtain ⟨hlt, -⟩ := List.getElem?_eq_some_iff.1 h
  rw [performPosted_of_getElem? h, List.getElem?_set_self hlt]

theorem getElem?_performPosted_other {p : Posted} {k : Nat} (hk : k ≠ p.bridge) :
    (performPosted bs p)[k]? = bs[k]? := by
  unfold performPosted
  split
  · exact List.getElem?_set_ne hk.symm
  · rfl

/-- The writes that STARTUP of a line bound to the slot `b` posts (R140). -/
def startWrites (b : BridgeSlot) (r : RouteValue) : List Posted :=
  [⟨b.bridge, b.slot, .enSet⟩, ⟨b.bridge, b.slot, .modeSet⟩, ⟨b.bridge, b.slot, .route r⟩]

/-- The bridge after the writes of a STARTUP. -/
def Bridge.started (slot : Nat) (r : RouteValue) (old : Bridge) : Bridge :=
  ((old.perform slot .enSet).perform slot .modeSet).perform slot (.route r)

theorem getElem?_startWrites_self (h : bs[b.bridge]? = some old) :
    ((startWrites b r).foldl performPosted bs)[b.bridge]? = some (old.started b.slot r) :=
  getElem?_performPosted_self (p := ⟨b.bridge, b.slot, .route r⟩)
    (getElem?_performPosted_self (p := ⟨b.bridge, b.slot, .modeSet⟩)
      (getElem?_performPosted_self (p := ⟨b.bridge, b.slot, .enSet⟩) h))

theorem getElem?_startWrites_other {k : Nat} (hk : k ≠ b.bridge) :
    ((startWrites b r).foldl performPosted bs)[k]? = bs[k]? := by
  simp only [startWrites, List.foldl_cons, List.foldl_nil]
  rw [getElem?_performPosted_other hk, getElem?_performPosted_other hk, getElem?_performPosted_other hk]

theorem Bridge.started_en_bit (slot i : Line) :
    (old.started slot.val r).en.getLsbD i.val = (old.en.getLsbD i.val || decide (i.val = slot.val)) := by
  simp only [Bridge.started, Bridge.perform_en_bit, reduceCtorEq, if_true, if_false]

theorem Bridge.started_mode_bit (slot i : Line) :
    (old.started slot.val r).mode.getLsbD i.val = (old.mode.getLsbD i.val || decide (i.val = slot.val)) := by
  simp only [Bridge.started, Bridge.perform_mode_bit, reduceCtorEq, if_true, if_false]

theorem Bridge.started_route {slot : Nat} (h : slot < old.route.length) :
    (old.started slot r).route[slot]? = some r := by
  simp [Bridge.started, Bridge.perform, h]

theorem Bridge.cleared_en_bit (slot : Line) : (old.perform slot.val .enClear).en.getLsbD slot.val = false := by
  rw [Bridge.perform_en_bit]
  simp

end

/-- Under the invariant, a slot that a binding names is one of 64, and its bridge has a routing value for it
whatever writes are performed first (R28, R29). -/
theorem State.Inv.bound_slot {s : State} {l : Line} {b : BridgeSlot} (hinv : s.Inv) (hbind : s.bind[l] = some b) :
    b.slot < 64 ∧ ∃ old, (s.bq.foldl performPosted s.bridges)[b.bridge]? = some old
      ∧ b.slot < old.route.length := by
  obtain ⟨hbridge, hslot⟩ := hinv.bindings l b hbind
  obtain ⟨hlength, hshaped⟩ := hinv.flush.bridges
  have hlt : b.bridge < (s.bq.foldl performPosted s.bridges).length := hlength ▸ hbridge
  refine ⟨Nat.lt_of_lt_of_le hslot (cfgWellFormed_nslot hinv.config), _, List.getElem?_eq_getElem hlt, ?_⟩
  rw [(hshaped _ (List.getElem_mem hlt)).1]
  exact hslot

/-- STARTUP of a bound line flushes the earlier writes and performs its own. -/
theorem State.startLine_bridges_bound {s : State} {l : Line} {b : BridgeSlot} (hbind : s.bind[l] = some b) :
    (s.startLine l).bridges = (startWrites b (cfgRouteVal s.cfg b.bridge b.slot l)).foldl performPosted
      (s.bq.foldl performPosted s.bridges) := by
  rw [(s.startLine_bound hbind).1, List.foldl_append]
  rfl

/-- Settles O38: the slot is one that exists, so each of the writes reaches it. -/
theorem bridgeBoundLineFollowsItsSlot : Obligations.BridgeBoundLineFollowsItsSlot := by
  unfold Obligations.BridgeBoundLineFollowsItsSlot
  intro s l b hinv ho hbind
  obtain ⟨hslot, old, hold, hroute⟩ := hinv.bound_slot hbind
  obtain ⟨t1, t2, hstart, hstop, ht1, ht2⟩ := exec_startup_shutdown ho
  let slot : Line := ⟨b.slot, hslot⟩
  have hstarted : t1.bridges[b.bridge]? = some (old.started b.slot (cfgRouteVal s.cfg b.bridge b.slot l)) := by
    rw [ht1, State.answered_bridges, State.startLine_bridges_bound hbind, getElem?_startWrites_self hold]
  have hposted : t2.bq = [⟨b.bridge, b.slot, .enClear⟩] ∧ t2.bridges = t1.bridges := by
    have hbq : t1.bq = [] := by rw [ht1, State.answered_bq, (s.startLine_bound hbind).2]
    have hbind1 : t1.bind[l] = some b := by simpa [ht1] using hbind
    exact ⟨by rw [ht2, State.answered_bq, t1.stopLine_bq_bound hbind1, hbq, List.nil_append], by simp [ht2]⟩
  refine ⟨t1, t2, _, _, hstart, hstop, ?_, hstarted, ?_, ?_, ?_, ?_, ?_,
    Bridge.cleared_en_bit (old := old.started b.slot (cfgRouteVal s.cfg b.bridge b.slot l)) slot⟩
  · rw [ht1, State.answered_mask, State.startLine_bit]
    simp
  · exact (Bridge.started_en_bit slot slot).trans (by simp)
  · exact (Bridge.started_mode_bit slot slot).trans (by simp)
  · exact Bridge.started_route hroute
  · rw [ht2, State.answered_mask, startLine_stopLine_bit (s := s) (by rw [ht1, State.answered_mask])
      (by rw [ht1, State.answered_owner])]
    simp
  · rw [State.flush_bridges, hposted.1, hposted.2]
    exact getElem?_performPosted_self (p := ⟨b.bridge, b.slot, .enClear⟩) hstarted

/-- The enable bit of the slot `b`, clear before the writes of a STARTUP of a line bound to `b'`, is set by them
exactly where the two slots are one. -/
theorem startWrites_en_bit {bs : List Bridge} {old : Bridge} {b b' : BridgeSlot} (r : RouteValue)
    (hslot : b.slot < 64) (hslot' : b'.slot < 64) (h : bs[b.bridge]? = some old)
    (hclear : old.en.getLsbD b.slot = false) :
    ∃ br, ((startWrites b' r).foldl performPosted bs)[b.bridge]? = some br
      ∧ br.en.getLsbD b.slot = decide (b' = b) := by
  obtain ⟨k, slot⟩ := b
  obtain ⟨k', slot'⟩ := b'
  by_cases hk : k = k'
  · subst hk
    refine ⟨_, getElem?_startWrites_self h, ?_⟩
    refine (Bridge.started_en_bit ⟨slot', hslot'⟩ ⟨slot, hslot⟩).trans ?_
    rw [hclear]
    simp [eq_comm]
  · refine ⟨old, (getElem?_startWrites_other hk).trans h, ?_⟩
    rw [hclear]
    simp [Ne.symm hk]

/-- SHUTDOWN of a bound line leaves the bridges, and its clear is performed last by the next flush (R142). -/
theorem State.stopLine_flush_bridges {s : State} {l : Line} {b : BridgeSlot} (hbind : s.bind[l] = some b) :
    (s.stopLine l).bq.foldl performPosted (s.stopLine l).bridges
      = performPosted (s.bq.foldl performPosted s.bridges) ⟨b.bridge, b.slot, .enClear⟩ := by
  rw [s.stopLine_bq_bound hbind, s.stopLine_bridges, List.foldl_append]
  rfl

/-- Settles O55: the clear is performed before the writes of the later STARTUP, which set the enable bit of the
slot of its own line only. -/
theorem postedDisableIsPerformedByALaterStartup : Obligations.PostedDisableIsPerformedByALaterStartup := by
  unfold Obligations.PostedDisableIsPerformedByALaterStartup
  intro s l b hinv hbind
  obtain ⟨hslot, old, hold, -⟩ := hinv.bound_slot hbind
  refine ⟨_, exec_shutdown_answered s l, s.stopLine_bridges l, s.stopLine_bq_bound hbind, fun k hk => ?_,
    fun m b' hm hb' => ?_⟩
  · rw [State.answered_mask, State.stopLine_mask, maskLine_own_bit hk]
  · obtain ⟨hslot', -⟩ := hinv.bound_slot (l := m) (b := b') (by simpa using hb')
    have hcleared := getElem?_performPosted_self (p := ⟨b.bridge, b.slot, .enClear⟩) hold
    obtain ⟨br, hbr, hbit⟩ := startWrites_en_bit (b := b) (b' := b') (cfgRouteVal s.cfg b'.bridge b'.slot m)
      hslot hslot' hcleared (Bridge.cleared_en_bit ⟨b.slot, hslot⟩)
    refine ⟨_, br, exec_startup_idle_answered _ m hm, (State.startLine_bound _ hb').2, ?_, hbit⟩
    rw [State.answered_bridges, State.startLine_bridges_bound hb', State.answered_bq, State.answered_bridges,
      State.stopLine_flush_bridges hbind, State.answered_cfg, State.stopLine_cfg, hbr]

end Sys2Proof.Machine
end

/-! Rules of the whole machine (00_scope.md R7; 10_state.md R24-R37; 41_ownership_binding.md R124, R127; 60_exceptions.md R236): what no command and no step does. Each rule is said of a command first, then of a step. -/
section
namespace Sys2Proof.Machine

/-! ### Ill-formed configurations -/

theorem step_of_illFormed {s : State} (h : cfgWellFormed s.cfg ≠ true) : step s = .refused .illFormedConfig :=
  if_neg h

/-- Disjoint masks have no line in common. -/
theorem no_common_line {v w : Word} (h : v &&& w = 0) (l : Line) :
    (v.getLsbD l.val && w.getLsbD l.val) = false := by
  rw [← BitVec.getLsbD_and, h]
  exact BitVec.getLsbD_zero

/-- Settles O42: a well-formed configuration has none of these faults. -/
theorem illFormedConfigurationsAreRefused : Obligations.IllFormedConfigurationsAreRefused := by
  unfold Obligations.IllFormedConfigurationsAreRefused
  refine ⟨by decide, fun s hbad => step_of_illFormed fun hwf => ?_⟩
  simp only [cfgWellFormed, decide_eq_true_eq] at hwf
  obtain ⟨-, -, -, hpin, ⟨-, hnodup⟩, heh, heg, hel, hhg, hhl, hgl, hcall, htimer⟩ := hwf
  rcases hbad with ⟨p, hp, habsent⟩ | hdup | ⟨l, hl⟩ | hresched | hlow
  · exact absurd (of_decide_eq_true (List.all_eq_true.1 hpin p hp)) (Nat.not_lt.2 habsent)
  · exact hdup hnodup
  · rw [no_common_line heh, no_common_line heg, no_common_line hel, no_common_line hhg, no_common_line hhl,
      no_common_line hgl] at hl
    cases hl
  · exact hcall hresched
  · exact absurd htimer (Nat.not_le.2 hlow)

/-! ### What a command leaves -/

section
variable {s t : State} {i : Instr} (h : ExecOf s i t)
include h

theorem ExecOf.hist_grows : s.hist <+: t.hist := by
  cases h <;> simp

theorem ExecOf.prog_eq : t.prog = s.prog := by
  cases h <;> simp

theorem ExecOf.cfg_eq : t.cfg = s.cfg := by
  cases h <;> simp

theorem ExecOf.cause_eq : t.cause = s.cause := by
  cases h <;> simp

/-- A command keeps the code of a `FAULT` already set (R34). -/
theorem ExecOf.fault_kept {code : FaultCode} (hf : s.fault = some code) : t.fault = some code := by
  cases h <;> simp [hf]

/-- BIND writes the entry of an unbound line, and no other command writes one. -/
theorem ExecOf.bind_kept {l : Line} {b : BridgeSlot} (hb : s.bind[l] = some b) : t.bind[l] = some b := by
  cases h with
  | bind l' _ _ _ _ hunbound =>
    have hother : l' ≠ l := by
      rintro rfl
      rw [hb] at hunbound
      cases hunbound
    simpa [hother] using hb
  | _ => simpa using hb

/-- Five commands change owners (R27, R124). -/
theorem ExecOf.owner_eq (hop : i.op ∉ [Op.startup, .assign, .shutdown, .release, .ctrlInit]) :
    t.owner = s.owner := by
  cases h with
  | assigned | release | started | shutdown | ctrlInit => simp [Instr.op] at hop
  | _ => simp

/-- STARTUP and ASSIGN record an owner only where there is none. -/
theorem ExecOf.owner_kept (hop : i.op ∈ [Op.startup, .assign]) {l : Line} {c : CpuId}
    (ho : s.owner[l] = some c) : t.owner[l] = some c := by
  cases h with
  | assigned l' _ _ hunowned | started l' hunowned =>
    have hother : l' ≠ l := by
      rintro rfl
      rw [ho] at hunowned
      cases hunowned
    simpa [hother] using ho
  | raised | assignRefused | startupBusy => simpa using ho
  | _ => simp [Instr.op] at hop

/-- SHUTDOWN, RELEASE and CTRL_INIT only clear owners. -/
theorem ExecOf.owner_cleared (hop : i.op ∈ [Op.shutdown, .release, .ctrlInit]) (l : Line) :
    t.owner[l] = s.owner[l] ∨ t.owner[l] = none := by
  cases h with
  | release l' | shutdown l' =>
    by_cases hl : l' = l
    · exact .inr (by simp [hl])
    · exact .inl (by simp [hl])
  | ctrlInit => exact .inr (by simp)
  | raised => exact .inl rfl
  | _ => simp [Instr.op] at hop

/-- A command of another CPU leaves the dispatcher, the send and the program index of CPU `c` (R236). -/
theorem ExecOf.otherCpu_eq {c : CpuId} (hself : s.self ≠ c) :
    t.disp[c] = s.disp[c] ∧ t.send[c] = s.send[c] ∧ t.index[c] = s.index[c] := by
  cases h with
  | entrySpurious => cases s.listed <;> simp [hself]
  | _ => simp [hself]

/-- A command changes no mask bit but those it names (R24, R70). -/
theorem ExecOf.mask_bit_eq {k : CpuId} {j : Line} (hname : ¬ MayChangeMaskBit s k j i) :
    t.mask[k].getLsbD j.val = s.mask[k].getLsbD j.val := by
  cases h with
  | wrMask c d hc | cpuReset c hc =>
    have hother : c ≠ k := fun hk => hname ⟨hk.symm, hc⟩
    simp [hother]
  | ctrlInit =>
    have habsent : ¬ k.val < s.cfg.ncpu := hname
    simp [habsent]
  | started l ho =>
    have hother : ¬ (j = l ∧ ownerChoice s.cfg l = k) := by
      rintro ⟨rfl, rfl⟩
      exact hname ⟨rfl, ho, rfl⟩
    rw [State.complete_mask, State.startLine_bit, ← Bool.decide_and, decide_eq_false hother, Bool.or_false]
  | shutdown l | mask l | maskAck l =>
    have hother : ¬ (j = l ∧ s.owner[l] = some k) := by
      rintro ⟨rfl, ho⟩
      exact hname ⟨rfl, ho⟩
    simp only [State.complete_mask, State.stopLine_mask, State.maskAckLine_mask]
    rw [State.maskLine_bit, ← Bool.decide_and, decide_eq_false hother, Bool.not_false, Bool.and_true]
  | unmask l =>
    have hother : ¬ (j = l ∧ s.owner[l] = some k) := by
      rintro ⟨rfl, ho⟩
      exact hname ⟨rfl, ho⟩
    rw [State.complete_mask, State.unmaskLine_bit, ← Bool.decide_and, decide_eq_false hother, Bool.or_false]
  | _ => simp

end

/-- The bits that a command other than the three whole writes names are one bit of one register. -/
theorem MayChangeMaskBit.unique {i : Instr} {s : State} {k k' : CpuId} {j j' : Line}
    (hop : i.op ∉ [Op.wrMask, .ctrlInit, .cpuReset]) (h : MayChangeMaskBit s k j i)
    (h' : MayChangeMaskBit s k' j' i) : k = k' ∧ j = j' := by
  cases i with
  | startup l =>
    obtain ⟨rfl, -, rfl⟩ := h
    obtain ⟨hj, -, rfl⟩ := h'
    obtain rfl := Fin.ext hj
    exact ⟨rfl, rfl⟩
  | shutdown l | mask l | unmask l | maskAck l =>
    obtain ⟨rfl, ho⟩ := h
    obtain ⟨hj, ho'⟩ := h'
    obtain rfl := Fin.ext hj
    exact ⟨Option.some.inj (ho.symm.trans ho'), rfl⟩
  | wrMask | ctrlInit | cpuReset => simp [Instr.op] at hop
  | _ => exact h.elim

/-- Settles O52: the one mask write of each command is to the register and the bit it names. -/
theorem controllerCommandsChangeOneMaskBit : Obligations.ControllerCommandsChangeOneMaskBit := by
  unfold Obligations.ControllerCommandsChangeOneMaskBit
  exact ⟨fun i s t k j hexec hname => (exec_cases hexec).mask_bit_eq hname,
    fun i s k k' j j' hop h h' => h.unique hop h'⟩

/-! ### What a step leaves -/

/-- Every step only appends to `HIST`, and keeps the programs and the configuration. -/
theorem step_hist_prog_cfg {s t : State} (hstep : step s = .next t) :
    s.hist <+: t.hist ∧ t.prog = s.prog ∧ t.cfg = s.cfg := by
  have hkept : s.popScheduled.hist <+: t.hist ∧ t.prog = s.popScheduled.prog ∧ t.cfg = s.popScheduled.cfg := by
    cases (step_cases hstep).2.2
    case command he | entry he | deliver he => exact ⟨he.hist_grows, he.prog_eq, he.cfg_eq⟩
    case dispatch c x _ _ _ => exact ⟨dispatch_hist (s.popScheduled.begin c x true), by simp, by simp⟩
    case access ha => cases ha <;> simp
    all_goals simp
  simpa using hkept

/-- Settles O47: each command, each dispatcher step and each other step appends its events, if any. -/
theorem historyIsAppendOnly : Obligations.HistoryIsAppendOnly := by
  unfold Obligations.HistoryIsAppendOnly
  exact ⟨fun s t => step_hist_prog_cfg, fun i s t hexec =>
    ⟨(exec_cases hexec).hist_grows, fun code => (exec_cases hexec).fault_kept⟩⟩

/-- A step leaves `CAUSE`, or is the device agent's and ORs cause bits in (R25). -/
theorem step_cause {s t : State} (hstep : step s = .next t) :
    t.cause = s.cause ∨ ∃ v, s.nextScheduled = .agent (.devCause v) ∧ t.cause = s.cause ||| v := by
  cases (step_cases hstep).2.2
  case devCause v hn => exact .inr ⟨v, hn, by simp⟩
  case command he | entry he | deliver he => exact .inl (he.cause_eq.trans (by simp))
  case access ha => exact .inl (by cases ha <;> simp)
  all_goals exact .inl (by simp)

/-- Settles O48: the one write of `CAUSE` is the device agent's OR. -/
theorem onlyTheDeviceAgentChangesCause : Obligations.OnlyTheDeviceAgentChangesCause := by
  unfold Obligations.OnlyTheDeviceAgentChangesCause
  intro s t hstep
  rcases step_cause hstep with hsame | ⟨v, hn, hset⟩
  · exact ⟨fun _ => hsame, fun i hi => by rwa [hsame]⟩
  · refine ⟨fun hother => absurd hn (hother v), fun i hi => ?_⟩
    rw [hset, BitVec.getLsbD_or, hi, Bool.true_or]

/-- Settles O49: BIND writes only an empty entry, and no other command or step writes one. -/
theorem bindingsAreNeverRemoved : Obligations.BindingsAreNeverRemoved := by
  unfold Obligations.BindingsAreNeverRemoved
  intro s t l b hstep hb
  have hpop : s.popScheduled.bind[l] = some b := by simpa using hb
  cases (step_cases hstep).2.2
  case command he | entry he | deliver he => exact he.bind_kept hpop
  case access ha => cases ha <;> simpa using hb
  all_goals simpa using hb

/-- A step leaves the owners, or runs one of the five commands on them from a program. -/
theorem step_owner {s t : State} (hstep : step s = .next t) :
    t.owner = s.owner
      ∨ ∃ c x i, s.Runs c x i ∧ i.op ∈ [Op.startup, .assign, .shutdown, .release, .ctrlInit] := by
  cases (step_cases hstep).2.2
  case command c x w d i hc hn hd hs hw hi he =>
    by_cases hop : i.op ∈ [Op.startup, .assign, .shutdown, .release, .ctrlInit]
    · exact .inr ⟨c, x, i, ⟨hc, hn, hd, hs, w, d, hw, hi⟩, hop⟩
    · exact .inl ((he.owner_eq hop).trans (by simp))
  case entry he | deliver he => exact .inl ((he.owner_eq (by decide)).trans (by simp))
  case access ha => exact .inl (by cases ha <;> simp)
  all_goals exact .inl (by simp)

/-- Settles O50: only a command writes the ownership table, and each of the five writes as R124 has it. -/
theorem ownersChangeOnlyByTheirCommands : Obligations.OwnersChangeOnlyByTheirCommands := by
  unfold Obligations.OwnersChangeOnlyByTheirCommands
  refine ⟨fun s t l hstep hchanged => (step_owner hstep).resolve_left fun hsame => hchanged (by rw [hsame]),
    fun i s t hexec => ⟨(exec_cases hexec).owner_eq, fun l c hop => (exec_cases hexec).owner_kept hop,
      fun l hop => (exec_cases hexec).owner_cleared hop l⟩⟩

/-- Settles O51: a step writes a dispatcher, a send or a program index only in the slot of its own CPU. -/
theorem privateStateBelongsToItsCpu : Obligations.PrivateStateBelongsToItsCpu := by
  unfold Obligations.PrivateStateBelongsToItsCpu
  intro s t c hstep hother
  have hcpu : ∀ {d x}, s.nextScheduled = .agent (.cpu d x) → d ≠ c := by
    rintro d x hn rfl
    exact (hother x).1 hn
  have hkept : t.disp[c] = s.popScheduled.disp[c] ∧ t.send[c] = s.popScheduled.send[c]
      ∧ t.index[c] = s.popScheduled.index[c] := by
    cases (step_cases hstep).2.2
    case command hn _ _ _ _ he => exact he.otherCpu_eq (hcpu hn)
    case entry x _ hn _ he => exact he.otherCpu_eq (by rintro rfl; exact (hother x).2.1 hn)
    case deliver x _ hn he => exact he.otherCpu_eq (by rintro rfl; exact (hother x).2.2 hn)
    case dispatch d x _ hn _ =>
      obtain ⟨hdisp, hindex⟩ := dispatch_private (s.popScheduled.begin d x true) c (hcpu hn)
      exact ⟨hdisp, by simp, hindex⟩
    case access hn _ _ _ ha => cases ha <;> simp [hcpu hn]
    case assertIpi hn _ _ => simp [hcpu hn]
    all_goals simp
  simpa using hkept

end Sys2Proof.Machine
end
